-- ==== Sys2Proof/Word.lean ====
section
/-! DEFINITION. The two widths of the machine (R6, R10): bytes and 16-bit words. -/

namespace Sys2Proof

/-- An 8-bit value, the spec's `u8` (R10). -/
abbrev Byte := BitVec 8

/-- A 16-bit value, the spec's `u16`: SP, PC, addresses and register pairs (R10). -/
abbrev Word := BitVec 16

end Sys2Proof
end

