-- ==== Sys2Proof/Config.lean ====
section
/-! DEFINITION. What is fixed at construction: the parameters of the model (R7), the names of the bus devices and of a
registered address range (R51, R59), the errors of construction (R223), and the one free value of a parameter. -/

namespace Sys2Proof

/-- The parameter `IMPL_OPCODES`: which opcode bytes the instruction table populates (R110). -/
inductive OpcodeSet where
  /-- `DOC_ATTESTED` = 0xAF and 0xC3. -/
  | docAttested
  /-- `FULL`, the default: every legal unprefixed opcode except 0x10. -/
  | full
  /-- `FULL_WITH_STOP` = `FULL` and 0x10. -/
  | fullWithStop
  /-- Any other subset; a member that is no legal opcode counts for nothing. -/
  | custom (ops : List Byte)
deriving DecidableEq, Repr, Inhabited

/-- The parameter `HC16`: the half-carry of `ADD HL,rr` (R184). -/
inductive HalfCarry16 where
  /-- The default: the carry out of bit 11. -/
  | bit11
  /-- Any other function of the operands: the free value `Config.otherHalfCarry16`. -/
  | other
deriving DecidableEq, Repr, Inhabited

/-- One entry of the parameter `CYCLES` that replaces the default cost of an opcode (R7, R111). -/
structure CycleOverride where
  opcode : Byte
  taken : Nat
  notTaken : Nat
deriving DecidableEq, Repr, Inhabited

/-- The parameters of a machine (R7). The contents of `RAM_INIT`, and of `ROM` below
0x8000, are the initial memory itself. -/
structure Config where
  /-- The length of the cartridge image in bytes (R43, R67). -/
  romLen : Nat
  /-- The image's bytes at offsets 0x8000 and above, which no bus access sees (R67); the others are cells of the memory. -/
  romRest : List Byte
  implOpcodes : OpcodeSet
  /-- The departures of `CYCLES` from the default table; empty is the default. One for 0xC3 counts for nothing (R6). -/
  cycleOverrides : List CycleOverride
  hc16 : HalfCarry16
  /-- `MAP_HRAM`: whether 0xFF80-0xFFFE is mapped as RAM (R63). -/
  mapHram : Bool
deriving DecidableEq, Repr, Inhabited

/-- The defaults of R7, with a 32 KiB image (the machine of the spec's test vectors; log entry 2). -/
def Config.default : Config where
  romLen := 0x8000
  romRest := []
  implOpcodes := .full
  cycleOverrides := []
  hc16 := .bit11
  mapHram := false

/-- FREE VALUE (log entry 7): the half-carry of `ADD HL,rr` on a machine whose `HC16` is not the default. -/
opaque Config.otherHalfCarry16 : Word → Word → Bool

/-- The devices bound to the bus (R59). The picture unit owns OAM and the register block, the interrupt controller the
addresses of IF and IE. -/
inductive Device where
  | rom | vram | wram | ppu | interrupt | hram
deriving DecidableEq, Repr, Inhabited

/-- A registered range: an inclusive interval of addresses and its device (R51). -/
structure Binding where
  first : Nat
  last : Nat
  device : Device
deriving DecidableEq, Repr, Inhabited

/-- Configuration errors: raised at construction, before any step; no machine exists after one (R223). -/
inductive ConfigError where
  | overlap
  | unsupportedCartridge (kind : Byte)
  | imageTooShort
  | unreadableImage
deriving DecidableEq, Repr, Inhabited

end Sys2Proof
end

