-- ==== Sys2Proof/Machine/Memory.lean ====
section
/-! DEFINITION. The backing storage of the memory devices, keyed by bus address: cartridge ROM, VRAM, WRAM, OAM and HRAM
(R57, R61-R64, R67). The byte `M[a - s]` of a device whose range starts at `s` is the cell of the address `a`. -/

namespace Sys2Proof.Machine

/-- Address and byte pairs in one canonical form: addresses strictly rising and below 0x10000, no byte equal to what an
unlisted address reads as. -/
abbrev Memory := List Host.Cell

/-- What a storage byte nothing has written reads as. DESIGN CHOICE (log entry 1): zero; `RAM_INIT` is unconstrained in
the spec (R294), and any other contents are a memory that lists them. -/
def Memory.unlisted (_ : Nat) : Byte := 0

/-- The stored byte of an address. -/
def Memory.read : Memory → Nat → Byte
  | [], a => Memory.unlisted a
  | (b, v) :: m, a => if b = a then v else Memory.read m a

/-- The memory without the cell of an address. -/
def Memory.erase (m : Memory) (a : Nat) : Memory := m.filter fun c => c.1 != a

/-- A cell put at its place in the rising order. -/
def Memory.insert : Memory → Nat → Byte → Memory
  | [], a, v => [(a, v)]
  | (b, w) :: m, a, v => if a < b then (a, v) :: (b, w) :: m else (b, w) :: Memory.insert m a v

/-- Store a byte, keeping the canonical form: writing what an unlisted address reads as removes the cell. -/
def Memory.write (m : Memory) (a : Nat) (v : Byte) : Memory :=
  if v = Memory.unlisted a then Memory.erase m a else Memory.insert (Memory.erase m a) a v

/-- The canonical form from a lowest address on. -/
def Memory.wfFrom : Nat → Memory → Bool
  | _, [] => true
  | lo, (a, v) :: m => decide (lo ≤ a) && decide (a < 0x10000) && (v != Memory.unlisted a) && Memory.wfFrom (a + 1) m

/-- The canonical form: equal memories are equal lists. -/
def Memory.wf (m : Memory) : Bool := Memory.wfFrom 0 m

end Sys2Proof.Machine
end

