-- ==== Sys2Proof/Machine/State.lean ====
section
/-! DEFINITION. The state of the machine as plain data, the reasons a step stops, and the state after reset (R291). -/

namespace Sys2Proof.Machine

/-- The kind of a bus access, as a fault record names it (R221, conflict C8). -/
inductive Access where
  | fetch | read | write
deriving DecidableEq, Repr, Inhabited

/-- The fatal errors (R221). Each ends the run (R222). They are the spec's own, so stopping on one is exact, not a
safe departure. -/
inductive Fault where
  /-- Raised by the decode phase of a step and by the meanings of the twelve rows that spell no instruction: the opcode
  byte and the address it was fetched from (R103, R215). Exact: the spec names the error. -/
  | unknownOpcode (op : Byte) (pc : Word)
  /-- Raised by any access to an address in no registered range (R52). Exact: the spec names the error. -/
  | busUnmapped (addr : Word) (access : Access)
  /-- Raised by a word access whose second byte leaves the device of the first (R54, R56) and by a ROM read past the
  image (R67); the address is the one the device cannot serve. Exact: the spec names the error. -/
  | deviceRange (addr : Word)
  /-- Raised by any write into 0x0000-0x7FFF (R68). Exact: the spec names the error. -/
  | romWrite (addr : Word)
deriving DecidableEq, Repr, Inhabited

/-- Why the model gives an instruction no meaning. -/
inductive Refusal where
  /-- Raised by an arm of `exec` whose instruction has no meaning yet; no arm raises it. Safe. -/
  | notModelled (mnemonic : String)
deriving DecidableEq, Repr, Inhabited

/-- The processor's registers (R20-R28). -/
structure Regs where
  a : Byte
  f : Byte
  b : Byte
  c : Byte
  d : Byte
  e : Byte
  h : Byte
  l : Byte
  sp : Word
  pc : Word
deriving DecidableEq, Repr, Inhabited

/-- The picture unit's register block and its cycle accumulator (R33-R41). `stat` holds the stored bits 7:2 of STAT; bits
1:0 are computed at a read (R35). -/
structure Ppu where
  lcdc : Byte
  stat : Byte
  scy : Byte
  scx : Byte
  ly : Byte
  lyc : Byte
  dma : Byte
  bgp : Byte
  obp0 : Byte
  obp1 : Byte
  wy : Byte
  wx : Byte
  acc : Nat
deriving DecidableEq, Repr, Inhabited

/-- The shade of one pixel, 0 to 3 (R44). -/
abbrev Shade := BitVec 2

/-- One row of the frame buffer: 160 pixels (R44). -/
abbrev Line := Vector Shade 160

/-- The frame buffer: 144 rows, `FB[y][x]` (R44). -/
abbrev FrameBuffer := Vector Line 144

/-- The whole state. `iflag` is the register IF. `cycles` is the count the processor step reports (R9, R14, R220). `cfg` holds the
parameters of R7, which no step changes. -/
structure State where
  regs : Regs
  ime : Bool
  halted : Bool
  ie : Byte
  iflag : Byte
  ppu : Ppu
  mem : Memory
  fb : FrameBuffer
  frames : Nat
  fault : Option Fault
  cycles : Nat
  cfg : Config
deriving DecidableEq, Repr, Inhabited

/-- The registers after construction (R291): all zero but PC. -/
def Regs.reset : Regs where
  a := 0
  f := 0
  b := 0
  c := 0
  d := 0
  e := 0
  h := 0
  l := 0
  sp := 0
  pc := 0x0100

/-- The picture unit after construction (R291): all zero. -/
def Ppu.reset : Ppu where
  lcdc := 0
  stat := 0
  scy := 0
  scx := 0
  ly := 0
  lyc := 0
  dma := 0
  bgp := 0
  obp0 := 0
  obp1 := 0
  wy := 0
  wx := 0
  acc := 0

/-- The machine right after construction (R290, R291), from a 32 KiB image of zero bytes and with zero RAM (log entries
1 and 2); `construct` in Machine/Cartridge.lean is the general form. -/
def State.reset : State where
  regs := Regs.reset
  ime := false
  halted := false
  ie := 0
  iflag := 0
  ppu := Ppu.reset
  mem := []
  fb := Vector.replicate 144 (Vector.replicate 160 0)
  frames := 0
  fault := none
  cycles := 0
  cfg := Config.default

end Sys2Proof.Machine
end

