-- ==== Sys2Proof/Machine/Cycles.lean ====
section
/-! DEFINITION. The cycle costs: the default table (R111, R301, the `cycles` and `cycles_not_taken` fields of
spec/opcode_table.json) and the parameter `CYCLES` over it (R7, R300). -/

namespace Sys2Proof.Machine

/-- The default cost of each opcode byte, taken if it is conditional; one line for each high digit. A byte that spells
no instruction costs nothing, for its step does not complete. -/
def defaultTakenCosts : List Nat :=
  [4, 12, 8, 8, 4, 4, 8, 4, 20, 8, 8, 8, 4, 4, 8, 4] ++
  [4, 12, 8, 8, 4, 4, 8, 4, 12, 8, 8, 8, 4, 4, 8, 4] ++
  [12, 12, 8, 8, 4, 4, 8, 4, 12, 8, 8, 8, 4, 4, 8, 4] ++
  [12, 12, 8, 8, 12, 12, 12, 4, 12, 8, 8, 8, 4, 4, 8, 4] ++
  [4, 4, 4, 4, 4, 4, 8, 4, 4, 4, 4, 4, 4, 4, 8, 4] ++
  [4, 4, 4, 4, 4, 4, 8, 4, 4, 4, 4, 4, 4, 4, 8, 4] ++
  [4, 4, 4, 4, 4, 4, 8, 4, 4, 4, 4, 4, 4, 4, 8, 4] ++
  [8, 8, 8, 8, 8, 8, 4, 8, 4, 4, 4, 4, 4, 4, 8, 4] ++
  [4, 4, 4, 4, 4, 4, 8, 4, 4, 4, 4, 4, 4, 4, 8, 4] ++
  [4, 4, 4, 4, 4, 4, 8, 4, 4, 4, 4, 4, 4, 4, 8, 4] ++
  [4, 4, 4, 4, 4, 4, 8, 4, 4, 4, 4, 4, 4, 4, 8, 4] ++
  [4, 4, 4, 4, 4, 4, 8, 4, 4, 4, 4, 4, 4, 4, 8, 4] ++
  [20, 12, 16, 16, 24, 16, 8, 16, 20, 16, 16, 0, 24, 24, 8, 16] ++
  [20, 12, 16, 0, 24, 16, 8, 16, 20, 16, 16, 0, 24, 0, 8, 16] ++
  [12, 12, 8, 0, 0, 16, 8, 16, 16, 4, 16, 0, 0, 0, 8, 16] ++
  [12, 12, 8, 4, 0, 16, 8, 16, 12, 8, 16, 4, 0, 0, 8, 16]

/-- The default cost of a conditional instruction that is not taken. -/
def defaultNotTakenCost (op : Byte) (taken : Nat) : Nat :=
  match op.toNat with
  | 0x20 | 0x28 | 0x30 | 0x38 | 0xC0 | 0xC8 | 0xD0 | 0xD8 => 8
  | 0xC2 | 0xC4 | 0xCA | 0xCC | 0xD2 | 0xD4 | 0xDA | 0xDC => 12
  | _ => taken

/-- The default cost of an opcode. -/
def defaultCost (op : Byte) (taken : Bool) : Nat :=
  let cost := (defaultTakenCosts[op.toNat]?).getD 0
  if taken then cost else defaultNotTakenCost op cost

/-- The cost of `JP nn`, opcode 0xC3, is the source's: no parameter changes it (R6, U4). -/
def costIsFixed (op : Byte) : Bool := op == 0xC3

/-- The cost of an opcode on this machine: the parameter `CYCLES`, but for the one cost that is fixed (R6, R7). -/
def cycleCost (cfg : Config) (op : Byte) (taken : Bool) : Nat :=
  if costIsFixed op then defaultCost op taken
  else
    match cfg.cycleOverrides.find? (fun o => o.opcode == op) with
    | some o => if taken then o.taken else o.notTaken
    | none => defaultCost op taken

/-- The cost of a step of the halted processor (R6, R211, R220). -/
def haltedCost : Nat := 4

/-- The cost of one interrupt dispatch (R6, R235). -/
def dispatchCost : Nat := 12

end Sys2Proof.Machine
end

