-- ==== Sys2Proof/Syntax.lean ====
section
/-! DEFINITION. The syntax: operand names and the ONE inductive of instructions, one constructor per row of
spec/opcode_table.json (256 opcode bytes: 244 legal instructions, the prefix byte 0xCB, eleven illegal bytes). -/

namespace Sys2Proof

/-- The 8-bit operand registers of the table `r[i]` (R94); index 6, the memory operand `(HL)`, has forms of its own.
F is no operand register (R25). -/
inductive Reg8 where
  | b | c | d | e | h | l | a
deriving DecidableEq, Repr, Inhabited

/-- The pair table `rp[p]` (R95). -/
inductive Pair where
  | bc | de | hl | sp
deriving DecidableEq, Repr, Inhabited

/-- The pair table `rp2[p]` of PUSH and POP (R96). -/
inductive StackPair where
  | bc | de | hl | af
deriving DecidableEq, Repr, Inhabited

/-- The condition table `cc[i]` (R97). -/
inductive Cond where
  | nz | z | nc | c
deriving DecidableEq, Repr, Inhabited

/-- The ALU operation table `alu[y]` (R98). -/
inductive AluOp where
  | add | adc | sub | sbc | and | xor | or | cp
deriving DecidableEq, Repr, Inhabited

/-- The three forms of the ALU operand `s` (R150): a register, the byte at `(HL)`, an immediate. -/
inductive AluOperand where
  | reg (r : Reg8)
  | atHL
  | imm (n : Byte)
deriving DecidableEq, Repr, Inhabited

/-- The instructions. A name is the mnemonic of the spec: `ldBC` is `LD B,C`, `ldBCnn` is `LD BC,nn`, `At` marks a
memory operand (`ldAAtHLInc` is `LD A,(HL+)`), a trailing `n`, `e` or `nn` an immediate. The immediate of `stop` is the
byte the spec reads and ignores (R212). The twelve rows that spell no instruction stand last (Lean's compiler admits
arguments only on the first 244 constructors). -/
inductive Instr where
  /-- 0x00 `NOP` (R210). -/
  | nop
  /-- 0x01 `LD BC,nn` (R140). -/
  | ldBCnn (nn : Word)
  /-- 0x02 `LD (BC),A` (R127). -/
  | ldAtBCA
  /-- 0x03 `INC BC` (R180). -/
  | incBC
  /-- 0x04 `INC B` (R161). -/
  | incB
  /-- 0x05 `DEC B` (R163). -/
  | decB
  /-- 0x06 `LD B,n` (R123). -/
  | ldBn (n : Byte)
  /-- 0x07 `RLCA` (R165). -/
  | rlca
  /-- 0x08 `LD (nn),SP` (R142). -/
  | ldAtnnSP (nn : Word)
  /-- 0x09 `ADD HL,BC` (R182). -/
  | addHLBC
  /-- 0x0A `LD A,(BC)` (R125). -/
  | ldAAtBC
  /-- 0x0B `DEC BC` (R181). -/
  | decBC
  /-- 0x0C `INC C` (R161). -/
  | incC
  /-- 0x0D `DEC C` (R163). -/
  | decC
  /-- 0x0E `LD C,n` (R123). -/
  | ldCn (n : Byte)
  /-- 0x0F `RRCA` (R166). -/
  | rrca
  /-- 0x10 `STOP` (R212). -/
  | stop (n : Byte)
  /-- 0x11 `LD DE,nn` (R140). -/
  | ldDEnn (nn : Word)
  /-- 0x12 `LD (DE),A` (R128). -/
  | ldAtDEA
  /-- 0x13 `INC DE` (R180). -/
  | incDE
  /-- 0x14 `INC D` (R161). -/
  | incD
  /-- 0x15 `DEC D` (R163). -/
  | decD
  /-- 0x16 `LD D,n` (R123). -/
  | ldDn (n : Byte)
  /-- 0x17 `RLA` (R167). -/
  | rla
  /-- 0x18 `JR e` (R194). -/
  | jre (e : Byte)
  /-- 0x19 `ADD HL,DE` (R182). -/
  | addHLDE
  /-- 0x1A `LD A,(DE)` (R126). -/
  | ldAAtDE
  /-- 0x1B `DEC DE` (R181). -/
  | decDE
  /-- 0x1C `INC E` (R161). -/
  | incE
  /-- 0x1D `DEC E` (R163). -/
  | decE
  /-- 0x1E `LD E,n` (R123). -/
  | ldEn (n : Byte)
  /-- 0x1F `RRA` (R168). -/
  | rra
  /-- 0x20 `JR NZ,e` (R195). -/
  | jrNZe (e : Byte)
  /-- 0x21 `LD HL,nn` (R140). -/
  | ldHLnn (nn : Word)
  /-- 0x22 `LD (HL+),A` (R137). -/
  | ldAtHLIncA
  /-- 0x23 `INC HL` (R180). -/
  | incHL
  /-- 0x24 `INC H` (R161). -/
  | incH
  /-- 0x25 `DEC H` (R163). -/
  | decH
  /-- 0x26 `LD H,n` (R123). -/
  | ldHn (n : Byte)
  /-- 0x27 `DAA` (R169). -/
  | daa
  /-- 0x28 `JR Z,e` (R195). -/
  | jrZe (e : Byte)
  /-- 0x29 `ADD HL,HL` (R182). -/
  | addHLHL
  /-- 0x2A `LD A,(HL+)` (R135). -/
  | ldAAtHLInc
  /-- 0x2B `DEC HL` (R181). -/
  | decHL
  /-- 0x2C `INC L` (R161). -/
  | incL
  /-- 0x2D `DEC L` (R163). -/
  | decL
  /-- 0x2E `LD L,n` (R123). -/
  | ldLn (n : Byte)
  /-- 0x2F `CPL` (R170). -/
  | cpl
  /-- 0x30 `JR NC,e` (R195). -/
  | jrNCe (e : Byte)
  /-- 0x31 `LD SP,nn` (R140). -/
  | ldSPnn (nn : Word)
  /-- 0x32 `LD (HL-),A` (R138). -/
  | ldAtHLDecA
  /-- 0x33 `INC SP` (R180). -/
  | incSP
  /-- 0x34 `INC (HL)` (R162). -/
  | incAtHL
  /-- 0x35 `DEC (HL)` (R164). -/
  | decAtHL
  /-- 0x36 `LD (HL),n` (R124). -/
  | ldAtHLn (n : Byte)
  /-- 0x37 `SCF` (R171). -/
  | scf
  /-- 0x38 `JR C,e` (R195). -/
  | jrCe (e : Byte)
  /-- 0x39 `ADD HL,SP` (R182). -/
  | addHLSP
  /-- 0x3A `LD A,(HL-)` (R136). -/
  | ldAAtHLDec
  /-- 0x3B `DEC SP` (R181). -/
  | decSP
  /-- 0x3C `INC A` (R161). -/
  | incA
  /-- 0x3D `DEC A` (R163). -/
  | decA
  /-- 0x3E `LD A,n` (R123). -/
  | ldAn (n : Byte)
  /-- 0x3F `CCF` (R172). -/
  | ccf
  /-- 0x40 `LD B,B` (R120). -/
  | ldBB
  /-- 0x41 `LD B,C` (R120). -/
  | ldBC
  /-- 0x42 `LD B,D` (R120). -/
  | ldBD
  /-- 0x43 `LD B,E` (R120). -/
  | ldBE
  /-- 0x44 `LD B,H` (R120). -/
  | ldBH
  /-- 0x45 `LD B,L` (R120). -/
  | ldBL
  /-- 0x46 `LD B,(HL)` (R121). -/
  | ldBAtHL
  /-- 0x47 `LD B,A` (R120). -/
  | ldBA
  /-- 0x48 `LD C,B` (R120). -/
  | ldCB
  /-- 0x49 `LD C,C` (R120). -/
  | ldCC
  /-- 0x4A `LD C,D` (R120). -/
  | ldCD
  /-- 0x4B `LD C,E` (R120). -/
  | ldCE
  /-- 0x4C `LD C,H` (R120). -/
  | ldCH
  /-- 0x4D `LD C,L` (R120). -/
  | ldCL
  /-- 0x4E `LD C,(HL)` (R121). -/
  | ldCAtHL
  /-- 0x4F `LD C,A` (R120). -/
  | ldCA
  /-- 0x50 `LD D,B` (R120). -/
  | ldDB
  /-- 0x51 `LD D,C` (R120). -/
  | ldDC
  /-- 0x52 `LD D,D` (R120). -/
  | ldDD
  /-- 0x53 `LD D,E` (R120). -/
  | ldDE
  /-- 0x54 `LD D,H` (R120). -/
  | ldDH
  /-- 0x55 `LD D,L` (R120). -/
  | ldDL
  /-- 0x56 `LD D,(HL)` (R121). -/
  | ldDAtHL
  /-- 0x57 `LD D,A` (R120). -/
  | ldDA
  /-- 0x58 `LD E,B` (R120). -/
  | ldEB
  /-- 0x59 `LD E,C` (R120). -/
  | ldEC
  /-- 0x5A `LD E,D` (R120). -/
  | ldED
  /-- 0x5B `LD E,E` (R120). -/
  | ldEE
  /-- 0x5C `LD E,H` (R120). -/
  | ldEH
  /-- 0x5D `LD E,L` (R120). -/
  | ldEL
  /-- 0x5E `LD E,(HL)` (R121). -/
  | ldEAtHL
  /-- 0x5F `LD E,A` (R120). -/
  | ldEA
  /-- 0x60 `LD H,B` (R120). -/
  | ldHB
  /-- 0x61 `LD H,C` (R120). -/
  | ldHC
  /-- 0x62 `LD H,D` (R120). -/
  | ldHD
  /-- 0x63 `LD H,E` (R120). -/
  | ldHE
  /-- 0x64 `LD H,H` (R120). -/
  | ldHH
  /-- 0x65 `LD H,L` (R120). -/
  | ldHL
  /-- 0x66 `LD H,(HL)` (R121). -/
  | ldHAtHL
  /-- 0x67 `LD H,A` (R120). -/
  | ldHA
  /-- 0x68 `LD L,B` (R120). -/
  | ldLB
  /-- 0x69 `LD L,C` (R120). -/
  | ldLC
  /-- 0x6A `LD L,D` (R120). -/
  | ldLD
  /-- 0x6B `LD L,E` (R120). -/
  | ldLE
  /-- 0x6C `LD L,H` (R120). -/
  | ldLH
  /-- 0x6D `LD L,L` (R120). -/
  | ldLL
  /-- 0x6E `LD L,(HL)` (R121). -/
  | ldLAtHL
  /-- 0x6F `LD L,A` (R120). -/
  | ldLA
  /-- 0x70 `LD (HL),B` (R122). -/
  | ldAtHLB
  /-- 0x71 `LD (HL),C` (R122). -/
  | ldAtHLC
  /-- 0x72 `LD (HL),D` (R122). -/
  | ldAtHLD
  /-- 0x73 `LD (HL),E` (R122). -/
  | ldAtHLE
  /-- 0x74 `LD (HL),H` (R122). -/
  | ldAtHLH
  /-- 0x75 `LD (HL),L` (R122). -/
  | ldAtHLL
  /-- 0x76 `HALT` (R211). -/
  | halt
  /-- 0x77 `LD (HL),A` (R122). -/
  | ldAtHLA
  /-- 0x78 `LD A,B` (R120). -/
  | ldAB
  /-- 0x79 `LD A,C` (R120). -/
  | ldAC
  /-- 0x7A `LD A,D` (R120). -/
  | ldAD
  /-- 0x7B `LD A,E` (R120). -/
  | ldAE
  /-- 0x7C `LD A,H` (R120). -/
  | ldAH
  /-- 0x7D `LD A,L` (R120). -/
  | ldAL
  /-- 0x7E `LD A,(HL)` (R121). -/
  | ldAAtHL
  /-- 0x7F `LD A,A` (R120). -/
  | ldAA
  /-- 0x80 `ADD A,B` (R153). -/
  | addAB
  /-- 0x81 `ADD A,C` (R153). -/
  | addAC
  /-- 0x82 `ADD A,D` (R153). -/
  | addAD
  /-- 0x83 `ADD A,E` (R153). -/
  | addAE
  /-- 0x84 `ADD A,H` (R153). -/
  | addAH
  /-- 0x85 `ADD A,L` (R153). -/
  | addAL
  /-- 0x86 `ADD A,(HL)` (R153). -/
  | addAAtHL
  /-- 0x87 `ADD A,A` (R153). -/
  | addAA
  /-- 0x88 `ADC A,B` (R154). -/
  | adcAB
  /-- 0x89 `ADC A,C` (R154). -/
  | adcAC
  /-- 0x8A `ADC A,D` (R154). -/
  | adcAD
  /-- 0x8B `ADC A,E` (R154). -/
  | adcAE
  /-- 0x8C `ADC A,H` (R154). -/
  | adcAH
  /-- 0x8D `ADC A,L` (R154). -/
  | adcAL
  /-- 0x8E `ADC A,(HL)` (R154). -/
  | adcAAtHL
  /-- 0x8F `ADC A,A` (R154). -/
  | adcAA
  /-- 0x90 `SUB B` (R155). -/
  | subB
  /-- 0x91 `SUB C` (R155). -/
  | subC
  /-- 0x92 `SUB D` (R155). -/
  | subD
  /-- 0x93 `SUB E` (R155). -/
  | subE
  /-- 0x94 `SUB H` (R155). -/
  | subH
  /-- 0x95 `SUB L` (R155). -/
  | subL
  /-- 0x96 `SUB (HL)` (R155). -/
  | subAtHL
  /-- 0x97 `SUB A` (R155). -/
  | subA
  /-- 0x98 `SBC A,B` (R156). -/
  | sbcAB
  /-- 0x99 `SBC A,C` (R156). -/
  | sbcAC
  /-- 0x9A `SBC A,D` (R156). -/
  | sbcAD
  /-- 0x9B `SBC A,E` (R156). -/
  | sbcAE
  /-- 0x9C `SBC A,H` (R156). -/
  | sbcAH
  /-- 0x9D `SBC A,L` (R156). -/
  | sbcAL
  /-- 0x9E `SBC A,(HL)` (R156). -/
  | sbcAAtHL
  /-- 0x9F `SBC A,A` (R156). -/
  | sbcAA
  /-- 0xA0 `AND B` (R157). -/
  | andB
  /-- 0xA1 `AND C` (R157). -/
  | andC
  /-- 0xA2 `AND D` (R157). -/
  | andD
  /-- 0xA3 `AND E` (R157). -/
  | andE
  /-- 0xA4 `AND H` (R157). -/
  | andH
  /-- 0xA5 `AND L` (R157). -/
  | andL
  /-- 0xA6 `AND (HL)` (R157). -/
  | andAtHL
  /-- 0xA7 `AND A` (R157). -/
  | andA
  /-- 0xA8 `XOR B` (R158). -/
  | xorB
  /-- 0xA9 `XOR C` (R158). -/
  | xorC
  /-- 0xAA `XOR D` (R158). -/
  | xorD
  /-- 0xAB `XOR E` (R158). -/
  | xorE
  /-- 0xAC `XOR H` (R158). -/
  | xorH
  /-- 0xAD `XOR L` (R158). -/
  | xorL
  /-- 0xAE `XOR (HL)` (R158). -/
  | xorAtHL
  /-- 0xAF `XOR A` (R158). -/
  | xorA
  /-- 0xB0 `OR B` (R159). -/
  | orB
  /-- 0xB1 `OR C` (R159). -/
  | orC
  /-- 0xB2 `OR D` (R159). -/
  | orD
  /-- 0xB3 `OR E` (R159). -/
  | orE
  /-- 0xB4 `OR H` (R159). -/
  | orH
  /-- 0xB5 `OR L` (R159). -/
  | orL
  /-- 0xB6 `OR (HL)` (R159). -/
  | orAtHL
  /-- 0xB7 `OR A` (R159). -/
  | orA
  /-- 0xB8 `CP B` (R160). -/
  | cpB
  /-- 0xB9 `CP C` (R160). -/
  | cpC
  /-- 0xBA `CP D` (R160). -/
  | cpD
  /-- 0xBB `CP E` (R160). -/
  | cpE
  /-- 0xBC `CP H` (R160). -/
  | cpH
  /-- 0xBD `CP L` (R160). -/
  | cpL
  /-- 0xBE `CP (HL)` (R160). -/
  | cpAtHL
  /-- 0xBF `CP A` (R160). -/
  | cpA
  /-- 0xC0 `RET NZ` (R199). -/
  | retNZ
  /-- 0xC1 `POP BC` (R144). -/
  | popBC
  /-- 0xC2 `JP NZ,nn` (R192). -/
  | jpNZnn (nn : Word)
  /-- 0xC3 `JP nn` (R191). -/
  | jpnn (nn : Word)
  /-- 0xC4 `CALL NZ,nn` (R197). -/
  | callNZnn (nn : Word)
  /-- 0xC5 `PUSH BC` (R143). -/
  | pushBC
  /-- 0xC6 `ADD A,n` (R153). -/
  | addAn (n : Byte)
  /-- 0xC7 `RST 0x00` (R201). -/
  | rst00
  /-- 0xC8 `RET Z` (R199). -/
  | retZ
  /-- 0xC9 `RET` (R198). -/
  | ret
  /-- 0xCA `JP Z,nn` (R192). -/
  | jpZnn (nn : Word)
  /-- 0xCC `CALL Z,nn` (R197). -/
  | callZnn (nn : Word)
  /-- 0xCD `CALL nn` (R196). -/
  | callnn (nn : Word)
  /-- 0xCE `ADC A,n` (R154). -/
  | adcAn (n : Byte)
  /-- 0xCF `RST 0x08` (R201). -/
  | rst08
  /-- 0xD0 `RET NC` (R199). -/
  | retNC
  /-- 0xD1 `POP DE` (R144). -/
  | popDE
  /-- 0xD2 `JP NC,nn` (R192). -/
  | jpNCnn (nn : Word)
  /-- 0xD4 `CALL NC,nn` (R197). -/
  | callNCnn (nn : Word)
  /-- 0xD5 `PUSH DE` (R143). -/
  | pushDE
  /-- 0xD6 `SUB n` (R155). -/
  | subn (n : Byte)
  /-- 0xD7 `RST 0x10` (R201). -/
  | rst10
  /-- 0xD8 `RET C` (R199). -/
  | retC
  /-- 0xD9 `RETI` (R200). -/
  | reti
  /-- 0xDA `JP C,nn` (R192). -/
  | jpCnn (nn : Word)
  /-- 0xDC `CALL C,nn` (R197). -/
  | callCnn (nn : Word)
  /-- 0xDE `SBC A,n` (R156). -/
  | sbcAn (n : Byte)
  /-- 0xDF `RST 0x18` (R201). -/
  | rst18
  /-- 0xE0 `LDH (n),A` (R132). -/
  | ldhAtnA (n : Byte)
  /-- 0xE1 `POP HL` (R144). -/
  | popHL
  /-- 0xE2 `LD (C),A` (R134). -/
  | ldAtCA
  /-- 0xE5 `PUSH HL` (R143). -/
  | pushHL
  /-- 0xE6 `AND n` (R157). -/
  | andn (n : Byte)
  /-- 0xE7 `RST 0x20` (R201). -/
  | rst20
  /-- 0xE8 `ADD SP,e` (R183). -/
  | addSPe (e : Byte)
  /-- 0xE9 `JP HL` (R193). -/
  | jpHL
  /-- 0xEA `LD (nn),A` (R130). -/
  | ldAtnnA (nn : Word)
  /-- 0xEE `XOR n` (R158). -/
  | xorn (n : Byte)
  /-- 0xEF `RST 0x28` (R201). -/
  | rst28
  /-- 0xF0 `LDH A,(n)` (R131). -/
  | ldhAAtn (n : Byte)
  /-- 0xF1 `POP AF` (R144). -/
  | popAF
  /-- 0xF2 `LD A,(C)` (R133). -/
  | ldAAtC
  /-- 0xF3 `DI` (R213). -/
  | di
  /-- 0xF5 `PUSH AF` (R143). -/
  | pushAF
  /-- 0xF6 `OR n` (R159). -/
  | orn (n : Byte)
  /-- 0xF7 `RST 0x30` (R201). -/
  | rst30
  /-- 0xF8 `LD HL,SP+e` (R146). -/
  | ldHLSPe (e : Byte)
  /-- 0xF9 `LD SP,HL` (R141). -/
  | ldSPHL
  /-- 0xFA `LD A,(nn)` (R129). -/
  | ldAAtnn (nn : Word)
  /-- 0xFB `EI` (R214). -/
  | ei
  /-- 0xFE `CP n` (R160). -/
  | cpn (n : Byte)
  /-- 0xFF `RST 0x38` (R201). -/
  | rst38
  /-- 0xCB `(CB prefix, not implemented)` (R215). -/
  | cbPrefix
  /-- 0xD3 `illegal byte` (R215). -/
  | illegalD3
  /-- 0xDB `illegal byte` (R215). -/
  | illegalDB
  /-- 0xDD `illegal byte` (R215). -/
  | illegalDD
  /-- 0xE3 `illegal byte` (R215). -/
  | illegalE3
  /-- 0xE4 `illegal byte` (R215). -/
  | illegalE4
  /-- 0xEB `illegal byte` (R215). -/
  | illegalEB
  /-- 0xEC `illegal byte` (R215). -/
  | illegalEC
  /-- 0xED `illegal byte` (R215). -/
  | illegalED
  /-- 0xF4 `illegal byte` (R215). -/
  | illegalF4
  /-- 0xFC `illegal byte` (R215). -/
  | illegalFC
  /-- 0xFD `illegal byte` (R215). -/
  | illegalFD
deriving DecidableEq, Repr, Inhabited

end Sys2Proof
end

