-- ==== Sys2Proof/WellFormed.lean ====
section
/-! DEFINITION. Well-formedness: of an instruction (it is one of the 244 the map spells) and of the parameters. -/

namespace Sys2Proof

/-- The instruction is one the opcode map spells: not the prefix byte (R105), not an illegal byte (R104). Operands need
no check, since their types hold exactly the values the encoding admits. -/
def Instr.wf : Instr → Bool
  | .cbPrefix | .illegalD3 | .illegalDB | .illegalDD | .illegalE3 | .illegalE4 | .illegalEB | .illegalEC | .illegalED
  | .illegalF4 | .illegalFC | .illegalFD => false
  | _ => true

/-- A replaced cost lies in the range the source gives, 4 to 24 cycles (R111). -/
def CycleOverride.wf (o : CycleOverride) : Bool :=
  decide (4 ≤ o.taken) && decide (o.taken ≤ 24) && decide (4 ≤ o.notTaken) && decide (o.notTaken ≤ 24)

/-- The parameters are ones a machine can be constructed with: the image is long enough (R70), the costs are in range
(R111). -/
def Config.wf (c : Config) : Bool :=
  decide (0x148 ≤ c.romLen) && c.cycleOverrides.all CycleOverride.wf

end Sys2Proof
end

