-- ==== Sys2Proof/Decode.lean ====
section
/-! DEFINITION. Decoding, total on any bytes, and after it the encoder: the dense instruction table of R103 with the
opcode map of R99-R102, the illegal bytes of R104 and the prefix byte of R105. Also the byte-order and sign-extension
helpers, the index tables of R94-R98, and the operand-indexed names of the instruction groups. -/

namespace Sys2Proof

/-- Bits 7:0 of a word (R10). -/
def lowByte (w : Word) : Byte := w.setWidth 8

/-- Bits 15:8 of a word (R10). -/
def highByte (w : Word) : Byte := (w >>> 8).setWidth 8

/-- `hi:lo`, the high byte first (R10, R23, R54). -/
def joinBytes (hi lo : Byte) : Word := BitVec.ofNat 16 (hi.toNat * 256 + lo.toNat)

/-- `zext16` (R12). -/
def zext16 (v : Byte) : Word := v.setWidth 16

/-- `sext16`: `0xFF00 | v` when bit 7 of `v` is set, else `v` (R12, R107). -/
def sext16 (v : Byte) : Word := if v &&& 0x80#8 ≠ 0#8 then 0xFF00#16 ||| zext16 v else zext16 v

/-- The fields of an opcode byte (R93). -/
def opcodeX (op : Byte) : Nat := op.toNat / 64
/-- `y` = op[5:3] (R93). -/
def opcodeY (op : Byte) : Nat := op.toNat / 8 % 8
/-- `z` = op[2:0] (R93). -/
def opcodeZ (op : Byte) : Nat := op.toNat % 8
/-- `p` = op[5:4] = `y >> 1` (R93). -/
def opcodeP (op : Byte) : Nat := opcodeY op / 2
/-- `q` = op[3] = `y & 1` (R93). -/
def opcodeQ (op : Byte) : Nat := opcodeY op % 2

/-- The index of a register in the operand table `r[i]` (R94). -/
def Reg8.code : Reg8 → Nat
  | .b => 0 | .c => 1 | .d => 2 | .e => 3 | .h => 4 | .l => 5 | .a => 7

/-- The index of a pair in `rp[p]` (R95). -/
def Pair.code : Pair → Nat
  | .bc => 0 | .de => 1 | .hl => 2 | .sp => 3

/-- The index of a pair in `rp2[p]` (R96). -/
def StackPair.code : StackPair → Nat
  | .bc => 0 | .de => 1 | .hl => 2 | .af => 3

/-- The index of a condition in `cc[i]` (R97). -/
def Cond.code : Cond → Nat
  | .nz => 0 | .z => 1 | .nc => 2 | .c => 3

/-- The index of an operation in `alu[y]` (R98). -/
def AluOp.code : AluOp → Nat
  | .add => 0 | .adc => 1 | .sub => 2 | .sbc => 3 | .and => 4 | .xor => 5 | .or => 6 | .cp => 7

/-- One row of the instruction table: an instruction with no immediate, with an 8-bit one, or with a 16-bit one
(R90, R106, R107). -/
inductive Row where
  | op0 (i : Instr)
  | op8 (mk : Byte → Instr)
  | op16 (mk : Word → Instr)

/-- The row's instruction with a zero immediate, to ask of the row what does not depend on the immediate. -/
def Row.sample : Row → Instr
  | .op0 i => i
  | .op8 mk => mk 0
  | .op16 mk => mk 0

/-- Opcode bytes 0x00 to 0x0F (R99-R102, R104, R105, R106). -/
def opcodeRow0 : List Row :=
  [.op0 .nop, .op16 .ldBCnn, .op0 .ldAtBCA, .op0 .incBC, .op0 .incB, .op0 .decB, .op8 .ldBn, .op0 .rlca,
   .op16 .ldAtnnSP, .op0 .addHLBC, .op0 .ldAAtBC, .op0 .decBC, .op0 .incC, .op0 .decC, .op8 .ldCn,
   .op0 .rrca]

/-- Opcode bytes 0x10 to 0x1F (R99-R102, R104, R105, R106). -/
def opcodeRow1 : List Row :=
  [.op8 .stop, .op16 .ldDEnn, .op0 .ldAtDEA, .op0 .incDE, .op0 .incD, .op0 .decD, .op8 .ldDn, .op0 .rla,
   .op8 .jre, .op0 .addHLDE, .op0 .ldAAtDE, .op0 .decDE, .op0 .incE, .op0 .decE, .op8 .ldEn, .op0 .rra]

/-- Opcode bytes 0x20 to 0x2F (R99-R102, R104, R105, R106). -/
def opcodeRow2 : List Row :=
  [.op8 .jrNZe, .op16 .ldHLnn, .op0 .ldAtHLIncA, .op0 .incHL, .op0 .incH, .op0 .decH, .op8 .ldHn,
   .op0 .daa, .op8 .jrZe, .op0 .addHLHL, .op0 .ldAAtHLInc, .op0 .decHL, .op0 .incL, .op0 .decL,
   .op8 .ldLn, .op0 .cpl]

/-- Opcode bytes 0x30 to 0x3F (R99-R102, R104, R105, R106). -/
def opcodeRow3 : List Row :=
  [.op8 .jrNCe, .op16 .ldSPnn, .op0 .ldAtHLDecA, .op0 .incSP, .op0 .incAtHL, .op0 .decAtHL,
   .op8 .ldAtHLn, .op0 .scf, .op8 .jrCe, .op0 .addHLSP, .op0 .ldAAtHLDec, .op0 .decSP, .op0 .incA,
   .op0 .decA, .op8 .ldAn, .op0 .ccf]

/-- Opcode bytes 0x40 to 0x4F (R99-R102, R104, R105, R106). -/
def opcodeRow4 : List Row :=
  [.op0 .ldBB, .op0 .ldBC, .op0 .ldBD, .op0 .ldBE, .op0 .ldBH, .op0 .ldBL, .op0 .ldBAtHL, .op0 .ldBA,
   .op0 .ldCB, .op0 .ldCC, .op0 .ldCD, .op0 .ldCE, .op0 .ldCH, .op0 .ldCL, .op0 .ldCAtHL, .op0 .ldCA]

/-- Opcode bytes 0x50 to 0x5F (R99-R102, R104, R105, R106). -/
def opcodeRow5 : List Row :=
  [.op0 .ldDB, .op0 .ldDC, .op0 .ldDD, .op0 .ldDE, .op0 .ldDH, .op0 .ldDL, .op0 .ldDAtHL, .op0 .ldDA,
   .op0 .ldEB, .op0 .ldEC, .op0 .ldED, .op0 .ldEE, .op0 .ldEH, .op0 .ldEL, .op0 .ldEAtHL, .op0 .ldEA]

/-- Opcode bytes 0x60 to 0x6F (R99-R102, R104, R105, R106). -/
def opcodeRow6 : List Row :=
  [.op0 .ldHB, .op0 .ldHC, .op0 .ldHD, .op0 .ldHE, .op0 .ldHH, .op0 .ldHL, .op0 .ldHAtHL, .op0 .ldHA,
   .op0 .ldLB, .op0 .ldLC, .op0 .ldLD, .op0 .ldLE, .op0 .ldLH, .op0 .ldLL, .op0 .ldLAtHL, .op0 .ldLA]

/-- Opcode bytes 0x70 to 0x7F (R99-R102, R104, R105, R106). -/
def opcodeRow7 : List Row :=
  [.op0 .ldAtHLB, .op0 .ldAtHLC, .op0 .ldAtHLD, .op0 .ldAtHLE, .op0 .ldAtHLH, .op0 .ldAtHLL, .op0 .halt,
   .op0 .ldAtHLA, .op0 .ldAB, .op0 .ldAC, .op0 .ldAD, .op0 .ldAE, .op0 .ldAH, .op0 .ldAL, .op0 .ldAAtHL,
   .op0 .ldAA]

/-- Opcode bytes 0x80 to 0x8F (R99-R102, R104, R105, R106). -/
def opcodeRow8 : List Row :=
  [.op0 .addAB, .op0 .addAC, .op0 .addAD, .op0 .addAE, .op0 .addAH, .op0 .addAL, .op0 .addAAtHL,
   .op0 .addAA, .op0 .adcAB, .op0 .adcAC, .op0 .adcAD, .op0 .adcAE, .op0 .adcAH, .op0 .adcAL,
   .op0 .adcAAtHL, .op0 .adcAA]

/-- Opcode bytes 0x90 to 0x9F (R99-R102, R104, R105, R106). -/
def opcodeRow9 : List Row :=
  [.op0 .subB, .op0 .subC, .op0 .subD, .op0 .subE, .op0 .subH, .op0 .subL, .op0 .subAtHL, .op0 .subA,
   .op0 .sbcAB, .op0 .sbcAC, .op0 .sbcAD, .op0 .sbcAE, .op0 .sbcAH, .op0 .sbcAL, .op0 .sbcAAtHL,
   .op0 .sbcAA]

/-- Opcode bytes 0xA0 to 0xAF (R99-R102, R104, R105, R106). -/
def opcodeRowA : List Row :=
  [.op0 .andB, .op0 .andC, .op0 .andD, .op0 .andE, .op0 .andH, .op0 .andL, .op0 .andAtHL, .op0 .andA,
   .op0 .xorB, .op0 .xorC, .op0 .xorD, .op0 .xorE, .op0 .xorH, .op0 .xorL, .op0 .xorAtHL, .op0 .xorA]

/-- Opcode bytes 0xB0 to 0xBF (R99-R102, R104, R105, R106). -/
def opcodeRowB : List Row :=
  [.op0 .orB, .op0 .orC, .op0 .orD, .op0 .orE, .op0 .orH, .op0 .orL, .op0 .orAtHL, .op0 .orA, .op0 .cpB,
   .op0 .cpC, .op0 .cpD, .op0 .cpE, .op0 .cpH, .op0 .cpL, .op0 .cpAtHL, .op0 .cpA]

/-- Opcode bytes 0xC0 to 0xCF (R99-R102, R104, R105, R106). -/
def opcodeRowC : List Row :=
  [.op0 .retNZ, .op0 .popBC, .op16 .jpNZnn, .op16 .jpnn, .op16 .callNZnn, .op0 .pushBC, .op8 .addAn,
   .op0 .rst00, .op0 .retZ, .op0 .ret, .op16 .jpZnn, .op0 .cbPrefix, .op16 .callZnn, .op16 .callnn,
   .op8 .adcAn, .op0 .rst08]

/-- Opcode bytes 0xD0 to 0xDF (R99-R102, R104, R105, R106). -/
def opcodeRowD : List Row :=
  [.op0 .retNC, .op0 .popDE, .op16 .jpNCnn, .op0 .illegalD3, .op16 .callNCnn, .op0 .pushDE, .op8 .subn,
   .op0 .rst10, .op0 .retC, .op0 .reti, .op16 .jpCnn, .op0 .illegalDB, .op16 .callCnn, .op0 .illegalDD,
   .op8 .sbcAn, .op0 .rst18]

/-- Opcode bytes 0xE0 to 0xEF (R99-R102, R104, R105, R106). -/
def opcodeRowE : List Row :=
  [.op8 .ldhAtnA, .op0 .popHL, .op0 .ldAtCA, .op0 .illegalE3, .op0 .illegalE4, .op0 .pushHL, .op8 .andn,
   .op0 .rst20, .op8 .addSPe, .op0 .jpHL, .op16 .ldAtnnA, .op0 .illegalEB, .op0 .illegalEC,
   .op0 .illegalED, .op8 .xorn, .op0 .rst28]

/-- Opcode bytes 0xF0 to 0xFF (R99-R102, R104, R105, R106). -/
def opcodeRowF : List Row :=
  [.op8 .ldhAAtn, .op0 .popAF, .op0 .ldAAtC, .op0 .di, .op0 .illegalF4, .op0 .pushAF, .op8 .orn,
   .op0 .rst30, .op8 .ldHLSPe, .op0 .ldSPHL, .op16 .ldAAtnn, .op0 .ei, .op0 .illegalFC, .op0 .illegalFD,
   .op8 .cpn, .op0 .rst38]

/-- The dense table, indexed by the opcode byte (R103). -/
def opcodeTable : List Row :=
  opcodeRow0 ++ opcodeRow1 ++ opcodeRow2 ++ opcodeRow3 ++ opcodeRow4 ++ opcodeRow5 ++ opcodeRow6 ++ opcodeRow7 ++
  opcodeRow8 ++ opcodeRow9 ++ opcodeRowA ++ opcodeRowB ++ opcodeRowC ++ opcodeRowD ++ opcodeRowE ++ opcodeRowF

/-- The row of an opcode byte. -/
def lookupRow (op : Byte) : Option Row := opcodeTable[op.toNat]?

/-- The 244 legal unprefixed opcode bytes: those whose row is a well-formed instruction (R104, R105, R110). -/
def legalOpcode (op : Byte) : Bool :=
  match lookupRow op with
  | some row => row.sample.wf
  | none => false

/-- Why bytes decode to nothing. -/
inductive DecodeError where
  /-- No byte to decode. -/
  | noBytes
  /-- The dense table has no row for the opcode byte; no byte answers so, since the table is full. -/
  | noRow (op : Byte)
  /-- The bytes end before the immediate the opcode asks for (R106). -/
  | immediateMissing (op : Byte)
deriving DecidableEq, Repr

/-- Decode the first instruction of a list of bytes and give back the bytes after it. A 16-bit immediate is
little-endian (R92). The bytes of R104 and R105 decode to their own rows, which have no immediate. -/
def decode : List Byte → Except DecodeError (Instr × List Byte)
  | [] => .error .noBytes
  | op :: rest =>
    match lookupRow op with
    | none => .error (.noRow op)
    | some (.op0 i) => .ok (i, rest)
    | some (.op8 mk) =>
      match rest with
      | n :: rest' => .ok (mk n, rest')
      | [] => .error (.immediateMissing op)
    | some (.op16 mk) =>
      match rest with
      | lo :: hi :: rest' => .ok (mk (joinBytes hi lo), rest')
      | _ => .error (.immediateMissing op)

/-- The bytes of an instruction, in the order they lie in memory (R90, R92, R106, R107). -/
def encode : Instr → List Byte
  | .nop => [0x00]
  | .ldBCnn nn => [0x01, lowByte nn, highByte nn]
  | .ldAtBCA => [0x02]
  | .incBC => [0x03]
  | .incB => [0x04]
  | .decB => [0x05]
  | .ldBn n => [0x06, n]
  | .rlca => [0x07]
  | .ldAtnnSP nn => [0x08, lowByte nn, highByte nn]
  | .addHLBC => [0x09]
  | .ldAAtBC => [0x0A]
  | .decBC => [0x0B]
  | .incC => [0x0C]
  | .decC => [0x0D]
  | .ldCn n => [0x0E, n]
  | .rrca => [0x0F]
  | .stop n => [0x10, n]
  | .ldDEnn nn => [0x11, lowByte nn, highByte nn]
  | .ldAtDEA => [0x12]
  | .incDE => [0x13]
  | .incD => [0x14]
  | .decD => [0x15]
  | .ldDn n => [0x16, n]
  | .rla => [0x17]
  | .jre e => [0x18, e]
  | .addHLDE => [0x19]
  | .ldAAtDE => [0x1A]
  | .decDE => [0x1B]
  | .incE => [0x1C]
  | .decE => [0x1D]
  | .ldEn n => [0x1E, n]
  | .rra => [0x1F]
  | .jrNZe e => [0x20, e]
  | .ldHLnn nn => [0x21, lowByte nn, highByte nn]
  | .ldAtHLIncA => [0x22]
  | .incHL => [0x23]
  | .incH => [0x24]
  | .decH => [0x25]
  | .ldHn n => [0x26, n]
  | .daa => [0x27]
  | .jrZe e => [0x28, e]
  | .addHLHL => [0x29]
  | .ldAAtHLInc => [0x2A]
  | .decHL => [0x2B]
  | .incL => [0x2C]
  | .decL => [0x2D]
  | .ldLn n => [0x2E, n]
  | .cpl => [0x2F]
  | .jrNCe e => [0x30, e]
  | .ldSPnn nn => [0x31, lowByte nn, highByte nn]
  | .ldAtHLDecA => [0x32]
  | .incSP => [0x33]
  | .incAtHL => [0x34]
  | .decAtHL => [0x35]
  | .ldAtHLn n => [0x36, n]
  | .scf => [0x37]
  | .jrCe e => [0x38, e]
  | .addHLSP => [0x39]
  | .ldAAtHLDec => [0x3A]
  | .decSP => [0x3B]
  | .incA => [0x3C]
  | .decA => [0x3D]
  | .ldAn n => [0x3E, n]
  | .ccf => [0x3F]
  | .ldBB => [0x40]
  | .ldBC => [0x41]
  | .ldBD => [0x42]
  | .ldBE => [0x43]
  | .ldBH => [0x44]
  | .ldBL => [0x45]
  | .ldBAtHL => [0x46]
  | .ldBA => [0x47]
  | .ldCB => [0x48]
  | .ldCC => [0x49]
  | .ldCD => [0x4A]
  | .ldCE => [0x4B]
  | .ldCH => [0x4C]
  | .ldCL => [0x4D]
  | .ldCAtHL => [0x4E]
  | .ldCA => [0x4F]
  | .ldDB => [0x50]
  | .ldDC => [0x51]
  | .ldDD => [0x52]
  | .ldDE => [0x53]
  | .ldDH => [0x54]
  | .ldDL => [0x55]
  | .ldDAtHL => [0x56]
  | .ldDA => [0x57]
  | .ldEB => [0x58]
  | .ldEC => [0x59]
  | .ldED => [0x5A]
  | .ldEE => [0x5B]
  | .ldEH => [0x5C]
  | .ldEL => [0x5D]
  | .ldEAtHL => [0x5E]
  | .ldEA => [0x5F]
  | .ldHB => [0x60]
  | .ldHC => [0x61]
  | .ldHD => [0x62]
  | .ldHE => [0x63]
  | .ldHH => [0x64]
  | .ldHL => [0x65]
  | .ldHAtHL => [0x66]
  | .ldHA => [0x67]
  | .ldLB => [0x68]
  | .ldLC => [0x69]
  | .ldLD => [0x6A]
  | .ldLE => [0x6B]
  | .ldLH => [0x6C]
  | .ldLL => [0x6D]
  | .ldLAtHL => [0x6E]
  | .ldLA => [0x6F]
  | .ldAtHLB => [0x70]
  | .ldAtHLC => [0x71]
  | .ldAtHLD => [0x72]
  | .ldAtHLE => [0x73]
  | .ldAtHLH => [0x74]
  | .ldAtHLL => [0x75]
  | .halt => [0x76]
  | .ldAtHLA => [0x77]
  | .ldAB => [0x78]
  | .ldAC => [0x79]
  | .ldAD => [0x7A]
  | .ldAE => [0x7B]
  | .ldAH => [0x7C]
  | .ldAL => [0x7D]
  | .ldAAtHL => [0x7E]
  | .ldAA => [0x7F]
  | .addAB => [0x80]
  | .addAC => [0x81]
  | .addAD => [0x82]
  | .addAE => [0x83]
  | .addAH => [0x84]
  | .addAL => [0x85]
  | .addAAtHL => [0x86]
  | .addAA => [0x87]
  | .adcAB => [0x88]
  | .adcAC => [0x89]
  | .adcAD => [0x8A]
  | .adcAE => [0x8B]
  | .adcAH => [0x8C]
  | .adcAL => [0x8D]
  | .adcAAtHL => [0x8E]
  | .adcAA => [0x8F]
  | .subB => [0x90]
  | .subC => [0x91]
  | .subD => [0x92]
  | .subE => [0x93]
  | .subH => [0x94]
  | .subL => [0x95]
  | .subAtHL => [0x96]
  | .subA => [0x97]
  | .sbcAB => [0x98]
  | .sbcAC => [0x99]
  | .sbcAD => [0x9A]
  | .sbcAE => [0x9B]
  | .sbcAH => [0x9C]
  | .sbcAL => [0x9D]
  | .sbcAAtHL => [0x9E]
  | .sbcAA => [0x9F]
  | .andB => [0xA0]
  | .andC => [0xA1]
  | .andD => [0xA2]
  | .andE => [0xA3]
  | .andH => [0xA4]
  | .andL => [0xA5]
  | .andAtHL => [0xA6]
  | .andA => [0xA7]
  | .xorB => [0xA8]
  | .xorC => [0xA9]
  | .xorD => [0xAA]
  | .xorE => [0xAB]
  | .xorH => [0xAC]
  | .xorL => [0xAD]
  | .xorAtHL => [0xAE]
  | .xorA => [0xAF]
  | .orB => [0xB0]
  | .orC => [0xB1]
  | .orD => [0xB2]
  | .orE => [0xB3]
  | .orH => [0xB4]
  | .orL => [0xB5]
  | .orAtHL => [0xB6]
  | .orA => [0xB7]
  | .cpB => [0xB8]
  | .cpC => [0xB9]
  | .cpD => [0xBA]
  | .cpE => [0xBB]
  | .cpH => [0xBC]
  | .cpL => [0xBD]
  | .cpAtHL => [0xBE]
  | .cpA => [0xBF]
  | .retNZ => [0xC0]
  | .popBC => [0xC1]
  | .jpNZnn nn => [0xC2, lowByte nn, highByte nn]
  | .jpnn nn => [0xC3, lowByte nn, highByte nn]
  | .callNZnn nn => [0xC4, lowByte nn, highByte nn]
  | .pushBC => [0xC5]
  | .addAn n => [0xC6, n]
  | .rst00 => [0xC7]
  | .retZ => [0xC8]
  | .ret => [0xC9]
  | .jpZnn nn => [0xCA, lowByte nn, highByte nn]
  | .cbPrefix => [0xCB]
  | .callZnn nn => [0xCC, lowByte nn, highByte nn]
  | .callnn nn => [0xCD, lowByte nn, highByte nn]
  | .adcAn n => [0xCE, n]
  | .rst08 => [0xCF]
  | .retNC => [0xD0]
  | .popDE => [0xD1]
  | .jpNCnn nn => [0xD2, lowByte nn, highByte nn]
  | .illegalD3 => [0xD3]
  | .callNCnn nn => [0xD4, lowByte nn, highByte nn]
  | .pushDE => [0xD5]
  | .subn n => [0xD6, n]
  | .rst10 => [0xD7]
  | .retC => [0xD8]
  | .reti => [0xD9]
  | .jpCnn nn => [0xDA, lowByte nn, highByte nn]
  | .illegalDB => [0xDB]
  | .callCnn nn => [0xDC, lowByte nn, highByte nn]
  | .illegalDD => [0xDD]
  | .sbcAn n => [0xDE, n]
  | .rst18 => [0xDF]
  | .ldhAtnA n => [0xE0, n]
  | .popHL => [0xE1]
  | .ldAtCA => [0xE2]
  | .illegalE3 => [0xE3]
  | .illegalE4 => [0xE4]
  | .pushHL => [0xE5]
  | .andn n => [0xE6, n]
  | .rst20 => [0xE7]
  | .addSPe e => [0xE8, e]
  | .jpHL => [0xE9]
  | .ldAtnnA nn => [0xEA, lowByte nn, highByte nn]
  | .illegalEB => [0xEB]
  | .illegalEC => [0xEC]
  | .illegalED => [0xED]
  | .xorn n => [0xEE, n]
  | .rst28 => [0xEF]
  | .ldhAAtn n => [0xF0, n]
  | .popAF => [0xF1]
  | .ldAAtC => [0xF2]
  | .di => [0xF3]
  | .illegalF4 => [0xF4]
  | .pushAF => [0xF5]
  | .orn n => [0xF6, n]
  | .rst30 => [0xF7]
  | .ldHLSPe e => [0xF8, e]
  | .ldSPHL => [0xF9]
  | .ldAAtnn nn => [0xFA, lowByte nn, highByte nn]
  | .ei => [0xFB]
  | .illegalFC => [0xFC]
  | .illegalFD => [0xFD]
  | .cpn n => [0xFE, n]
  | .rst38 => [0xFF]

/-- The opcode byte of an instruction. -/
def Instr.opcode (i : Instr) : Byte := (encode i).headD 0

/-- The length in bytes (R106). -/
def Instr.length (i : Instr) : Nat := (encode i).length

/-- The instruction the decoder reads from a table word of `nbits` bits: bit 0 is the least significant bit of the
first byte, the bits above `nbits` are zero, and three bytes are laid out (the longest instruction, R90). -/
def tableWordBytes (nbits w : Nat) : List Byte :=
  let v := w % 2 ^ nbits
  [BitVec.ofNat 8 v, BitVec.ofNat 8 (v / 256), BitVec.ofNat 8 (v / 65536)]

def decodeTableWord (nbits w : Nat) : Option Instr :=
  match decode (tableWordBytes nbits w) with
  | .ok (i, _) => some i
  | .error _ => none

/-- `LD r,r'` for a destination and a source (R100, R120). -/
def Instr.ldRegReg : Reg8 → Reg8 → Instr
  | .b, .b => .ldBB
  | .b, .c => .ldBC
  | .b, .d => .ldBD
  | .b, .e => .ldBE
  | .b, .h => .ldBH
  | .b, .l => .ldBL
  | .b, .a => .ldBA
  | .c, .b => .ldCB
  | .c, .c => .ldCC
  | .c, .d => .ldCD
  | .c, .e => .ldCE
  | .c, .h => .ldCH
  | .c, .l => .ldCL
  | .c, .a => .ldCA
  | .d, .b => .ldDB
  | .d, .c => .ldDC
  | .d, .d => .ldDD
  | .d, .e => .ldDE
  | .d, .h => .ldDH
  | .d, .l => .ldDL
  | .d, .a => .ldDA
  | .e, .b => .ldEB
  | .e, .c => .ldEC
  | .e, .d => .ldED
  | .e, .e => .ldEE
  | .e, .h => .ldEH
  | .e, .l => .ldEL
  | .e, .a => .ldEA
  | .h, .b => .ldHB
  | .h, .c => .ldHC
  | .h, .d => .ldHD
  | .h, .e => .ldHE
  | .h, .h => .ldHH
  | .h, .l => .ldHL
  | .h, .a => .ldHA
  | .l, .b => .ldLB
  | .l, .c => .ldLC
  | .l, .d => .ldLD
  | .l, .e => .ldLE
  | .l, .h => .ldLH
  | .l, .l => .ldLL
  | .l, .a => .ldLA
  | .a, .b => .ldAB
  | .a, .c => .ldAC
  | .a, .d => .ldAD
  | .a, .e => .ldAE
  | .a, .h => .ldAH
  | .a, .l => .ldAL
  | .a, .a => .ldAA

/-- `LD r,(HL)` (R100, R121). -/
def Instr.ldRegAtHL : Reg8 → Instr
  | .b => .ldBAtHL
  | .c => .ldCAtHL
  | .d => .ldDAtHL
  | .e => .ldEAtHL
  | .h => .ldHAtHL
  | .l => .ldLAtHL
  | .a => .ldAAtHL

/-- `LD (HL),r` (R100, R122). -/
def Instr.ldAtHLReg : Reg8 → Instr
  | .b => .ldAtHLB
  | .c => .ldAtHLC
  | .d => .ldAtHLD
  | .e => .ldAtHLE
  | .h => .ldAtHLH
  | .l => .ldAtHLL
  | .a => .ldAtHLA

/-- `LD r,n` (R99, R123). -/
def Instr.ldRegImm : Reg8 → Byte → Instr
  | .b, n => .ldBn n
  | .c, n => .ldCn n
  | .d, n => .ldDn n
  | .e, n => .ldEn n
  | .h, n => .ldHn n
  | .l, n => .ldLn n
  | .a, n => .ldAn n

/-- `INC r` (R99, R161). -/
def Instr.incReg : Reg8 → Instr
  | .b => .incB
  | .c => .incC
  | .d => .incD
  | .e => .incE
  | .h => .incH
  | .l => .incL
  | .a => .incA

/-- `DEC r` (R99, R163). -/
def Instr.decReg : Reg8 → Instr
  | .b => .decB
  | .c => .decC
  | .d => .decD
  | .e => .decE
  | .h => .decH
  | .l => .decL
  | .a => .decA

/-- `LD rr,nn` (R99, R140). -/
def Instr.ldPairImm : Pair → Word → Instr
  | .bc, nn => .ldBCnn nn
  | .de, nn => .ldDEnn nn
  | .hl, nn => .ldHLnn nn
  | .sp, nn => .ldSPnn nn

/-- `INC rr` (R99, R180). -/
def Instr.incPair : Pair → Instr
  | .bc => .incBC
  | .de => .incDE
  | .hl => .incHL
  | .sp => .incSP

/-- `DEC rr` (R99, R181). -/
def Instr.decPair : Pair → Instr
  | .bc => .decBC
  | .de => .decDE
  | .hl => .decHL
  | .sp => .decSP

/-- `ADD HL,rr` (R99, R182). -/
def Instr.addHLPair : Pair → Instr
  | .bc => .addHLBC
  | .de => .addHLDE
  | .hl => .addHLHL
  | .sp => .addHLSP

/-- `PUSH rr` (R102, R143). -/
def Instr.push : StackPair → Instr
  | .bc => .pushBC
  | .de => .pushDE
  | .hl => .pushHL
  | .af => .pushAF

/-- `POP rr` (R102, R144). -/
def Instr.pop : StackPair → Instr
  | .bc => .popBC
  | .de => .popDE
  | .hl => .popHL
  | .af => .popAF

/-- `JR cc,e` (R99, R195). -/
def Instr.jrCond : Cond → Byte → Instr
  | .nz, e => .jrNZe e
  | .z, e => .jrZe e
  | .nc, e => .jrNCe e
  | .c, e => .jrCe e

/-- `JP cc,nn` (R102, R192). -/
def Instr.jpCond : Cond → Word → Instr
  | .nz, nn => .jpNZnn nn
  | .z, nn => .jpZnn nn
  | .nc, nn => .jpNCnn nn
  | .c, nn => .jpCnn nn

/-- `CALL cc,nn` (R102, R197). -/
def Instr.callCond : Cond → Word → Instr
  | .nz, nn => .callNZnn nn
  | .z, nn => .callZnn nn
  | .nc, nn => .callNCnn nn
  | .c, nn => .callCnn nn

/-- `RET cc` (R102, R199). -/
def Instr.retCond : Cond → Instr
  | .nz => .retNZ
  | .z => .retZ
  | .nc => .retNC
  | .c => .retC

/-- `RST y*8` for the field `y` (R102, R201). -/
def Instr.rst : Fin 8 → Instr
  | 0 => .rst00
  | 1 => .rst08
  | 2 => .rst10
  | 3 => .rst18
  | 4 => .rst20
  | 5 => .rst28
  | 6 => .rst30
  | 7 => .rst38

/-- `alu[y] r` (R101, R150). -/
def Instr.aluReg : AluOp → Reg8 → Instr
  | .add, .b => .addAB
  | .add, .c => .addAC
  | .add, .d => .addAD
  | .add, .e => .addAE
  | .add, .h => .addAH
  | .add, .l => .addAL
  | .add, .a => .addAA
  | .adc, .b => .adcAB
  | .adc, .c => .adcAC
  | .adc, .d => .adcAD
  | .adc, .e => .adcAE
  | .adc, .h => .adcAH
  | .adc, .l => .adcAL
  | .adc, .a => .adcAA
  | .sub, .b => .subB
  | .sub, .c => .subC
  | .sub, .d => .subD
  | .sub, .e => .subE
  | .sub, .h => .subH
  | .sub, .l => .subL
  | .sub, .a => .subA
  | .sbc, .b => .sbcAB
  | .sbc, .c => .sbcAC
  | .sbc, .d => .sbcAD
  | .sbc, .e => .sbcAE
  | .sbc, .h => .sbcAH
  | .sbc, .l => .sbcAL
  | .sbc, .a => .sbcAA
  | .and, .b => .andB
  | .and, .c => .andC
  | .and, .d => .andD
  | .and, .e => .andE
  | .and, .h => .andH
  | .and, .l => .andL
  | .and, .a => .andA
  | .xor, .b => .xorB
  | .xor, .c => .xorC
  | .xor, .d => .xorD
  | .xor, .e => .xorE
  | .xor, .h => .xorH
  | .xor, .l => .xorL
  | .xor, .a => .xorA
  | .or, .b => .orB
  | .or, .c => .orC
  | .or, .d => .orD
  | .or, .e => .orE
  | .or, .h => .orH
  | .or, .l => .orL
  | .or, .a => .orA
  | .cp, .b => .cpB
  | .cp, .c => .cpC
  | .cp, .d => .cpD
  | .cp, .e => .cpE
  | .cp, .h => .cpH
  | .cp, .l => .cpL
  | .cp, .a => .cpA

/-- `alu[y] (HL)` (R101, R150). -/
def Instr.aluAtHL : AluOp → Instr
  | .add => .addAAtHL
  | .adc => .adcAAtHL
  | .sub => .subAtHL
  | .sbc => .sbcAAtHL
  | .and => .andAtHL
  | .xor => .xorAtHL
  | .or => .orAtHL
  | .cp => .cpAtHL

/-- `alu[y] n` (R102, R150). -/
def Instr.aluImm : AluOp → Byte → Instr
  | .add, n => .addAn n
  | .adc, n => .adcAn n
  | .sub, n => .subn n
  | .sbc, n => .sbcAn n
  | .and, n => .andn n
  | .xor, n => .xorn n
  | .or, n => .orn n
  | .cp, n => .cpn n

/-- `alu[y] s` for the three operand forms of R150. -/
def Instr.alu (o : AluOp) : AluOperand → Instr
  | .reg r => Instr.aluReg o r
  | .atHL => Instr.aluAtHL o
  | .imm n => Instr.aluImm o n

/-- The twelve rows that spell no instruction, by their opcode byte (R104, R105, R215); `none` for the other bytes. -/
def Instr.unassigned (op : Byte) : Option Instr :=
  match op.toNat with
  | 0xCB => some .cbPrefix
  | 0xD3 => some .illegalD3
  | 0xDB => some .illegalDB
  | 0xDD => some .illegalDD
  | 0xE3 => some .illegalE3
  | 0xE4 => some .illegalE4
  | 0xEB => some .illegalEB
  | 0xEC => some .illegalEC
  | 0xED => some .illegalED
  | 0xF4 => some .illegalF4
  | 0xFC => some .illegalFC
  | 0xFD => some .illegalFD
  | _ => none

end Sys2Proof
end

