-- ==== Sys2Proof/Machine/Flags.lean ====
section
/-! DEFINITION. The flag register and every flag computation: the 8-bit adder and subtractor (R151, R152), the logical
operations (R157-R159), the rotates (R165-R168), DAA (R169) and the 16-bit additions (R184). -/

namespace Sys2Proof.Machine

/-- The four flags (R25, R26). -/
structure Flags where
  z : Bool
  n : Bool
  h : Bool
  c : Bool
deriving DecidableEq, Repr, Inhabited

/-- F from the flags: Z = bit 7, N = bit 6, H = bit 5, C = bit 4, bits 3:0 zero (R25). -/
def Flags.pack (x : Flags) : Byte :=
  (if x.z then 0x80#8 else 0#8) ||| (if x.n then 0x40#8 else 0#8) ||| (if x.h then 0x20#8 else 0#8) ||| (if x.c then 0x10#8 else 0#8)

/-- The flags of F (R25). -/
def Flags.unpack (f : Byte) : Flags where
  z := f.getLsbD 7
  n := f.getLsbD 6
  h := f.getLsbD 5
  c := f.getLsbD 4

/-- An 8-bit result with the flags that go with it. -/
structure AluResult where
  value : Byte
  flags : Flags
deriving DecidableEq, Repr, Inhabited

/-- `add8(a, b, cin)`: exact sum, then the wrapped result and the carries out of bits 3 and 7 (R151). -/
def add8 (a b : Byte) (cin : Bool) : AluResult :=
  let sum := a.toNat + b.toNat + cin.toNat
  let value := BitVec.ofNat 8 sum
  { value := value
    flags := { z := value == 0#8, n := false, h := decide (a.toNat % 16 + b.toNat % 16 + cin.toNat > 15), c := decide (sum > 255) } }

/-- `sub8(a, b, cin)`: the wrapped difference and the borrows into bits 4 and 8 (R152). -/
def sub8 (a b : Byte) (cin : Bool) : AluResult :=
  let value := BitVec.ofInt 8 ((a.toNat : Int) - b.toNat - cin.toNat)
  { value := value
    flags := { z := value == 0#8, n := true, h := decide (a.toNat % 16 < b.toNat % 16 + cin.toNat),
               c := decide (a.toNat < b.toNat + cin.toNat) } }

/-- AND: H set, N and C clear (R157). -/
def and8 (a b : Byte) : AluResult :=
  { value := a &&& b, flags := { z := a &&& b == 0#8, n := false, h := true, c := false } }

/-- XOR: N, H and C clear (R158). -/
def xor8 (a b : Byte) : AluResult :=
  { value := a ^^^ b, flags := { z := a ^^^ b == 0#8, n := false, h := false, c := false } }

/-- OR: N, H and C clear (R159). -/
def or8 (a b : Byte) : AluResult :=
  { value := a ||| b, flags := { z := a ||| b == 0#8, n := false, h := false, c := false } }

/-- The result of `alu[y]` on A and the operand, `carry` being F.C (R153-R160). -/
def aluResult (o : AluOp) (a s : Byte) (carry : Bool) : AluResult :=
  match o with
  | .add => add8 a s false
  | .adc => add8 a s carry
  | .sub => sub8 a s false
  | .sbc => sub8 a s carry
  | .and => and8 a s
  | .xor => xor8 a s
  | .or => or8 a s
  | .cp => sub8 a s false

/-- CP writes no A; the other seven operations do (R160). -/
def aluWritesA (o : AluOp) : Bool :=
  match o with
  | .cp => false
  | .add | .adc | .sub | .sbc | .and | .xor | .or => true

/-- INC: the adder with 1, C kept (R161, R162). -/
def inc8 (v : Byte) (old : Flags) : AluResult :=
  let r := add8 v 1#8 false
  { value := r.value, flags := { r.flags with c := old.c } }

/-- DEC: the subtractor with 1, C kept (R163, R164). -/
def dec8 (v : Byte) (old : Flags) : AluResult :=
  let r := sub8 v 1#8 false
  { value := r.value, flags := { r.flags with c := old.c } }

/-- A rotate's flags: Z, N and H clear, C the bit rotated out (R165-R168). -/
def rotateFlags (out : Bool) : Flags := { z := false, n := false, h := false, c := out }

/-- RLCA (R165). -/
def rlc8 (a : Byte) : AluResult :=
  { value := (a <<< 1) ||| (a >>> 7), flags := rotateFlags (a.getLsbD 7) }

/-- RRCA (R166). -/
def rrc8 (a : Byte) : AluResult :=
  { value := (a >>> 1) ||| (a <<< 7), flags := rotateFlags (a.getLsbD 0) }

/-- RLA, through the carry (R167). -/
def rl8 (a : Byte) (carry : Bool) : AluResult :=
  { value := (a <<< 1) ||| (if carry then 1#8 else 0#8), flags := rotateFlags (a.getLsbD 7) }

/-- RRA, through the carry (R168). -/
def rr8 (a : Byte) (carry : Bool) : AluResult :=
  { value := (a >>> 1) ||| (if carry then 0x80#8 else 0#8), flags := rotateFlags (a.getLsbD 0) }

/-- DAA: the value after the adjustment of the high digit and the new C (R169). -/
def daaHigh (a : Byte) (x : Flags) : Byte × Bool :=
  if x.n then (if x.c then a - 0x60#8 else a, x.c)
  else if x.c || decide (a.toNat > 0x99) then (a + 0x60#8, true)
  else (a, x.c)

/-- DAA: the value after the adjustment of the low digit too (R169). After an add the test of the low digit looks at the
value already adjusted, whose low digit is A's. -/
def daaLow (v : Byte) (x : Flags) : Byte :=
  if x.n then (if x.h then v - 0x06#8 else v)
  else if x.h || decide (v.toNat % 16 > 9) then v + 0x06#8
  else v

/-- DAA (R169): N kept, H clear. -/
def daa8 (a : Byte) (x : Flags) : AluResult :=
  let high := daaHigh a x
  let value := daaLow high.1 x
  { value := value, flags := { z := value == 0#8, n := x.n, h := false, c := high.2 } }

/-- CPL's flags: N and H set (R170). -/
def cplFlags (x : Flags) : Flags := { x with n := true, h := true }

/-- SCF (R171). -/
def scfFlags (x : Flags) : Flags := { x with n := false, h := false, c := true }

/-- CCF (R172). -/
def ccfFlags (x : Flags) : Flags := { x with n := false, h := false, c := !x.c }

/-- `HC16(a, b)`: by default the carry out of bit 11 (R184). -/
def halfCarry16 (mode : HalfCarry16) (a b : Word) : Bool :=
  match mode with
  | .bit11 => decide (a.toNat % 0x1000 + b.toNat % 0x1000 > 0x0FFF)
  | .other => Config.otherHalfCarry16 a b

/-- The flags of `ADD HL,rr`: Z kept (R182). -/
def addHLFlags (mode : HalfCarry16) (a b : Word) (old : Flags) : Flags :=
  { z := old.z, n := false, h := halfCarry16 mode a b, c := decide (a.toNat + b.toNat > 0xFFFF) }

/-- The value of `AddSPe(sp, e)` (R184). -/
def addSPeValue (sp : Word) (e : Byte) : Word := sp + sext16 e

/-- The flags of `AddSPe(sp, e)`: the unsigned addition of the low byte of SP and the raw byte `e` (R184); Z and N are
clear (R146, R183). -/
def addSPeFlags (sp : Word) (e : Byte) : Flags :=
  { z := false, n := false, h := decide (sp.toNat % 16 + e.toNat % 16 > 15), c := decide (sp.toNat % 256 + e.toNat > 255) }

end Sys2Proof.Machine
end

