-- ==== Sys2Proof/Machine/Ops.lean ====
section
/-! DEFINITION. The named operations over registers, bus and stack, and taking an interrupt and returning from one, each
written once. -/

namespace Sys2Proof.Machine

/-- What a meaning answers. -/
abbrev Out := Host.Outcome State Fault Refusal

/-- Go on from a next state; a fault or a refusal stays. -/
def thenRun (o : Out) (k : State → Out) : Out :=
  match o with
  | .next s => k s
  | .fault r => .fault r
  | .refused r => .refused r

/-- Go on with the value of a bus operation; its error ends the step (R14, R222). -/
def orFault {α : Type} (r : Except Fault α) (k : α → Out) : Out :=
  match r with
  | .ok v => k v
  | .error e => .fault e

/-! ### Registers -/

/-- Read an 8-bit operand register (R11, R94). -/
def Regs.get (g : Regs) (r : Reg8) : Byte :=
  match r with
  | .b => g.b
  | .c => g.c
  | .d => g.d
  | .e => g.e
  | .h => g.h
  | .l => g.l
  | .a => g.a

/-- Write an 8-bit operand register (R11, R94). -/
def Regs.set (g : Regs) (r : Reg8) (v : Byte) : Regs :=
  match r with
  | .b => { g with b := v }
  | .c => { g with c := v }
  | .d => { g with d := v }
  | .e => { g with e := v }
  | .h => { g with h := v }
  | .l => { g with l := v }
  | .a => { g with a := v }

/-- Read a pair of `rp` (R11, R23, R95): the high register in bits 15:8. -/
def Regs.getPair (g : Regs) (p : Pair) : Word :=
  match p with
  | .bc => joinBytes g.b g.c
  | .de => joinBytes g.d g.e
  | .hl => joinBytes g.h g.l
  | .sp => g.sp

/-- Write a pair of `rp`: both halves (R11, R23, R95). -/
def Regs.setPair (g : Regs) (p : Pair) (v : Word) : Regs :=
  match p with
  | .bc => { g with b := highByte v, c := lowByte v }
  | .de => { g with d := highByte v, e := lowByte v }
  | .hl => { g with h := highByte v, l := lowByte v }
  | .sp => { g with sp := v }

/-- Read a pair of `rp2` (R24, R96). -/
def Regs.getStackPair (g : Regs) (p : StackPair) : Word :=
  match p with
  | .bc => joinBytes g.b g.c
  | .de => joinBytes g.d g.e
  | .hl => joinBytes g.h g.l
  | .af => joinBytes g.a g.f

/-- Write a pair of `rp2`; writing AF forces F[3:0] to zero (R24, R25, R144). -/
def Regs.setStackPair (g : Regs) (p : StackPair) (v : Word) : Regs :=
  match p with
  | .bc => { g with b := highByte v, c := lowByte v }
  | .de => { g with d := highByte v, e := lowByte v }
  | .hl => { g with h := highByte v, l := lowByte v }
  | .af => { g with a := highByte v, f := lowByte v &&& 0xF0#8 }

/-- `r[X]`. -/
def State.reg (s : State) (r : Reg8) : Byte := s.regs.get r

/-- `r[X] <- v`. -/
def State.setReg (s : State) (r : Reg8) (v : Byte) : State := { s with regs := s.regs.set r v }

/-- `rr[XY]`, or SP. -/
def State.pair (s : State) (p : Pair) : Word := s.regs.getPair p

/-- `rr[XY] <- v`, or `SP <- v`. -/
def State.setPair (s : State) (p : Pair) (v : Word) : State := { s with regs := s.regs.setPair p v }

/-- `rr[XY]` of PUSH. -/
def State.stackPair (s : State) (p : StackPair) : Word := s.regs.getStackPair p

/-- `rr[XY] <- v` of POP. -/
def State.setStackPair (s : State) (p : StackPair) (v : Word) : State := { s with regs := s.regs.setStackPair p v }

/-- The program counter (R28). -/
def State.pc (s : State) : Word := s.regs.pc

/-- `PC <- v`. -/
def State.setPC (s : State) (v : Word) : State := { s with regs := { s.regs with pc := v } }

/-- The stack pointer (R27). -/
def State.sp (s : State) : Word := s.regs.sp

/-- `SP <- v`. -/
def State.setSP (s : State) (v : Word) : State := { s with regs := { s.regs with sp := v } }

/-- The flags of F (R25). -/
def State.flags (s : State) : Flags := Flags.unpack s.regs.f

/-- Write the flags; F[3:0] becomes zero (R25). -/
def State.setFlags (s : State) (x : Flags) : State := { s with regs := { s.regs with f := x.pack } }

/-- Write the interrupt master enable (R29). -/
def State.setIme (s : State) (v : Bool) : State := { s with ime := v }

/-- Write the run state (R30). -/
def State.setHalted (s : State) (v : Bool) : State := { s with halted := v }

/-- Write the backing storage. -/
def State.setMem (s : State) (m : Memory) : State := { s with mem := m }

/-- Write the picture unit's registers. -/
def State.setPpu (s : State) (p : Ppu) : State := { s with ppu := p }

/-- Write IE (R31). -/
def State.setIe (s : State) (v : Byte) : State := { s with ie := v }

/-- Write IF (R32). -/
def State.setIflag (s : State) (v : Byte) : State := { s with iflag := v }

/-- The step's count so far. -/
def State.setCycles (s : State) (n : Nat) : State := { s with cycles := n }

/-- `cycles <- n` for the opcode, its taken cost (R14). -/
def State.charge (s : State) (op : Byte) : State := s.setCycles (cycleCost s.cfg op true)

/-- `cycles <- n` for a conditional opcode that is not taken. -/
def State.chargeNotTaken (s : State) (op : Byte) : State := s.setCycles (cycleCost s.cfg op false)

/-! ### The bus -/

/-- The ranges registered at construction, in the order of R290: the address map (R59). -/
def busBindings (mapHram : Bool) : List Binding :=
  [⟨0x0000, 0x7FFF, .rom⟩, ⟨0x8000, 0x9FFF, .vram⟩, ⟨0xC000, 0xDFFF, .wram⟩, ⟨0xFE00, 0xFE9F, .ppu⟩,
   ⟨0xFF0F, 0xFF0F, .interrupt⟩, ⟨0xFF40, 0xFF4B, .ppu⟩] ++
  (if mapHram then [⟨0xFF80, 0xFFFE, .hram⟩] else []) ++ [⟨0xFFFF, 0xFFFF, .interrupt⟩]

/-- The device that owns an address, by a linear scan of the registered ranges (R52). -/
def scanBindings : List Binding → Nat → Option Device
  | [], _ => none
  | b :: bs, a => if b.first ≤ a ∧ a ≤ b.last then some b.device else scanBindings bs a

/-- The device that owns an address on this machine. -/
def owner (cfg : Config) (a : Word) : Option Device := scanBindings (busBindings cfg.mapHram) a.toNat

/-- The mode function, a pure function of LY and the accumulator (R251). -/
def ppuMode (ly : Byte) (acc : Nat) : Byte :=
  if ly.toNat ≥ 144 then 1 else if acc < 80 then 2 else if acc < 252 then 3 else 0

/-- Read the register block, 0xFF40-0xFF4B (R33, R65). -/
def Ppu.read (p : Ppu) (a : Word) : Byte :=
  if a = 0xFF40#16 then p.lcdc
  else if a = 0xFF41#16 then (p.stat &&& 0xFC#8) ||| ppuMode p.ly p.acc
  else if a = 0xFF42#16 then p.scy
  else if a = 0xFF43#16 then p.scx
  else if a = 0xFF44#16 then p.ly
  else if a = 0xFF45#16 then p.lyc
  else if a = 0xFF46#16 then p.dma
  else if a = 0xFF47#16 then p.bgp
  else if a = 0xFF48#16 then p.obp0
  else if a = 0xFF49#16 then p.obp1
  else if a = 0xFF4A#16 then p.wy
  else p.wx

/-- Write the register block: STAT keeps bits 7:2 only, LY ignores the write (R33, R65). -/
def Ppu.write (p : Ppu) (a : Word) (v : Byte) : Ppu :=
  if a = 0xFF40#16 then { p with lcdc := v }
  else if a = 0xFF41#16 then { p with stat := v &&& 0xFC#8 }
  else if a = 0xFF42#16 then { p with scy := v }
  else if a = 0xFF43#16 then { p with scx := v }
  else if a = 0xFF44#16 then p
  else if a = 0xFF45#16 then { p with lyc := v }
  else if a = 0xFF46#16 then { p with dma := v }
  else if a = 0xFF47#16 then { p with bgp := v }
  else if a = 0xFF48#16 then { p with obp0 := v }
  else if a = 0xFF49#16 then { p with obp1 := v }
  else if a = 0xFF4A#16 then { p with wy := v }
  else { p with wx := v }

/-- A device's read of one byte of its ranges (R57, R61-R67). -/
def deviceRead (s : State) (d : Device) (a : Word) : Except Fault Byte :=
  match d with
  | .rom => if a.toNat < s.cfg.romLen then .ok (Memory.read s.mem a.toNat) else .error (.deviceRange a)
  | .vram | .wram | .hram => .ok (Memory.read s.mem a.toNat)
  | .ppu =>
    if a.toNat < 0xFF40 then .ok (Memory.read s.mem a.toNat) else .ok (s.ppu.read a)
  | .interrupt => if a = 0xFF0F#16 then .ok s.iflag else .ok s.ie

/-- A device's write of one byte of its ranges (R57, R61-R68). -/
def deviceWrite (s : State) (d : Device) (a : Word) (v : Byte) : Except Fault State :=
  match d with
  | .rom => .error (.romWrite a)
  | .vram | .wram | .hram => .ok (s.setMem (Memory.write s.mem a.toNat v))
  | .ppu =>
    if a.toNat < 0xFF40 then .ok (s.setMem (Memory.write s.mem a.toNat v))
    else .ok (s.setPpu (s.ppu.write a v))
  | .interrupt => if a = 0xFF0F#16 then .ok (s.setIflag v) else .ok (s.setIe v)

/-- `readByte(a)` (R52, R53); `k` says whether the read is a fetch. -/
def readByte (k : Access) (s : State) (a : Word) : Except Fault Byte :=
  match owner s.cfg a with
  | none => .error (.busUnmapped a k)
  | some d => deviceRead s d a

/-- `writeByte(a, v)` (R52, R55). -/
def writeByte (s : State) (a : Word) (v : Byte) : Except Fault State :=
  match owner s.cfg a with
  | none => .error (.busUnmapped a .write)
  | some d => deviceWrite s d a v

/-- `readWord(a)`: the device of `a` reads both bytes, the low one first, and fails on a second byte it does not own
(R54). -/
def readWord (k : Access) (s : State) (a : Word) : Except Fault Word :=
  match owner s.cfg a with
  | none => .error (.busUnmapped a k)
  | some d =>
    match deviceRead s d a with
    | .error e => .error e
    | .ok lo =>
      if owner s.cfg (a + 1#16) = some d then
        match deviceRead s d (a + 1#16) with
        | .error e => .error e
        | .ok hi => .ok (joinBytes hi lo)
      else .error (.deviceRange (a + 1#16))

/-- `writeWord(a, v)`: the device of `a` writes both bytes, the low one first, and fails on a second byte it does not
own (R56). -/
def writeWord (s : State) (a : Word) (v : Word) : Except Fault State :=
  match owner s.cfg a with
  | none => .error (.busUnmapped a .write)
  | some d =>
    match deviceWrite s d a (lowByte v) with
    | .error e => .error e
    | .ok t =>
      if owner s.cfg (a + 1#16) = some d then deviceWrite t d (a + 1#16) (highByte v)
      else .error (.deviceRange (a + 1#16))

/-! ### Fetching -/

/-- `FetchByte()` (R13, R92). -/
def fetchByte (s : State) : Except Fault (Byte × State) :=
  match readByte .fetch s s.pc with
  | .error e => .error e
  | .ok v => .ok (v, s.setPC (s.pc + 1#16))

/-- `FetchWord()` (R13, R92). -/
def fetchWord (s : State) : Except Fault (Word × State) :=
  match readWord .fetch s s.pc with
  | .error e => .error e
  | .ok v => .ok (v, s.setPC (s.pc + 2#16))

/-- The opcode bytes the instruction table of this machine populates, `IMPL_OPCODES`; never an illegal byte and never
0xCB (R103-R105, R110). -/
def populated (cfg : Config) (op : Byte) : Bool :=
  legalOpcode op &&
  match cfg.implOpcodes with
  | .docAttested => op == 0xAF || op == 0xC3
  | .full => op != 0x10
  | .fullWithStop => true
  | .custom ops => ops.contains op

/-- Fetch one instruction: the opcode byte (R91), the decode phase (R103), the immediate (R92). An opcode the table does
not populate faults with the address it was fetched from, before any further byte is read (R105, R215). -/
def fetchInstr (s : State) : Except Fault (Instr × State) :=
  match fetchByte s with
  | .error e => .error e
  | .ok (op, t) =>
    if populated s.cfg op then
      match lookupRow op with
      | none => .error (.unknownOpcode op s.pc)
      | some (.op0 i) => .ok (i, t)
      | some (.op8 mk) =>
        match fetchByte t with
        | .error e => .error e
        | .ok (n, u) => .ok (mk n, u)
      | some (.op16 mk) =>
        match fetchWord t with
        | .error e => .error e
        | .ok (nn, u) => .ok (mk nn, u)
    else .error (.unknownOpcode op s.pc)

/-! ### The stack -/

/-- `Push(v)` (R13, R145). -/
def push (v : Word) (s : State) : Except Fault State := writeWord (s.setSP (s.sp - 2#16)) (s.sp - 2#16) v

/-- `Pop()` (R13, R145). -/
def pop (s : State) : Except Fault (Word × State) :=
  match readWord .read s s.sp with
  | .error e => .error e
  | .ok v => .ok (v, s.setSP (s.sp + 2#16))

/-! ### Interrupts -/

/-- The bit mask of source `i` in IE and IF (R230). -/
def sourceMask (i : Nat) : Byte := 1#8 <<< i

/-- `setRequest(i)` (R233). -/
def setRequest (i : Nat) (s : State) : State := s.setIflag (s.iflag ||| sourceMask i)

/-- `clearRequest(i)` (R233). -/
def clearRequest (i : Nat) (s : State) : State := s.setIflag (s.iflag &&& ~~~(sourceMask i))

/-- The vector of source `i` (R237). -/
def vectorOf (i : Nat) : Word := BitVec.ofNat 16 (0x0040 + 8 * i)

/-- TAKING AN INTERRUPT, `Dispatch(i)` (R236): PC is pushed, PC is the vector, the request and IME are cleared, and the
dispatch costs 12 cycles (R235). A push that fails ends the run. -/
def dispatch (i : Nat) (s : State) : Out :=
  orFault (push s.pc s) fun t =>
    .next ((((clearRequest i t).setPC (vectorOf i)).setIme false).setCycles (t.cycles + dispatchCost))

/-- RETURNING FROM AN INTERRUPT (R200, R240): PC is popped and IME is set at once. -/
def returnFromInterrupt (s : State) : Except Fault State :=
  match pop s with
  | .error e => .error e
  | .ok (v, t) => .ok ((t.setPC v).setIme true)

/-- Dispatch every source of a snapshot, in the order of the list (R235). -/
def serviceSources (pend : Byte) : List Nat → State → Out
  | [], s => .next s
  | i :: is, s => if pend.getLsbD i then thenRun (dispatch i s) (serviceSources pend is) else serviceSources pend is s

/-- The pending and enabled sources (R231, R234, R235). -/
def pendingEnabled (s : State) : Byte := s.ie &&& s.iflag &&& 0x1F#8

/-- `ServiceInterrupts()`: one snapshot, then every source of it in ascending order (R235, R238). -/
def serviceInterrupts (s : State) : Out := serviceSources (pendingEnabled s) [0, 1, 2, 3, 4] s

/-- The interrupt phase of a step: IME is tested once (R220, R234). -/
def interruptPhase (s : State) : Out := if s.ime then serviceInterrupts s else .next s

end Sys2Proof.Machine
end

