-- ==== Sys2Proof/Machine/Cartridge.lean ====
section
/-! DEFINITION. Construction, the only reset (R290): registration of the ranges (R51, R87), the cartridge image (R67, R70),
the initial RAM (R294), the title (R71); and placing an instruction where the next step fetches. -/

namespace Sys2Proof.Machine

/-- Two inclusive ranges intersect (R51). -/
def overlaps (x y : Binding) : Bool := decide (x.first ≤ y.last) && decide (y.first ≤ x.last)

/-- `map(range, device)`: registration, rejected if the range intersects one registered before (R51). -/
def registerRange (table : List Binding) (b : Binding) : Except ConfigError (List Binding) :=
  if table.any (overlaps b) then .error .overlap else .ok (table ++ [b])

/-- Register ranges in order (R87, R290). -/
def registerRanges : List Binding → List Binding → Except ConfigError (List Binding)
  | table, [] => .ok table
  | table, b :: bs =>
    match registerRange table b with
    | .error e => .error e
    | .ok table' => registerRanges table' bs

/-- The cartridge's bytes put at their addresses; bytes at offsets 0x8000 and above are never visible
there (R67). -/
def loadImage : List Byte → Nat → Memory → Memory
  | [], _, m => m
  | v :: vs, a, m => loadImage vs (a + 1) (if a < 0x8000 then Memory.write m a v else m)

/-- The addresses whose bytes `RAM_INIT` gives: VRAM, WRAM, OAM and, if mapped, HRAM (R42, R294). -/
def isRamAddress (cfg : Config) (a : Nat) : Bool :=
  decide (a < 0x10000) &&
  match scanBindings (busBindings cfg.mapHram) a with
  | some .vram | some .wram | some .hram => true
  | some .ppu => decide (a < 0xFF00)
  | _ => false

/-- The initial RAM put at its addresses (R294). -/
def loadRam (cfg : Config) : List Host.Cell → Memory → Memory
  | [], m => m
  | (a, v) :: cells, m => loadRam cfg cells (if isRamAddress cfg a then Memory.write m a v else m)

/-- Construction of a machine from an image (absent when the loader could not read it), the parameters and the initial
RAM: validate, register, set every state element (R70, R223, R290, R291). The image gives `romLen` and `romRest`. -/
def construct (image : Option (List Byte)) (params : Config) (ramInit : List Host.Cell) : Except ConfigError State :=
  match image with
  | none => .error .unreadableImage
  | some bytes =>
    if bytes.length < 0x148 then .error .imageTooShort
    else if bytes.getD 0x147 0 ≠ 0 then .error (.unsupportedCartridge (bytes.getD 0x147 0))
    else
      match registerRanges [] (busBindings params.mapHram) with
      | .error e => .error e
      | .ok _ =>
        let cfg := { params with romLen := bytes.length, romRest := bytes.drop 0x8000 }
        .ok { State.reset with mem := loadRam cfg ramInit (loadImage bytes 0 []), cfg := cfg }

/-- The numeric code of a configuration error (R223). -/
def configErrorCode (e : ConfigError) : Nat :=
  match e with
  | .overlap => 16
  | .unsupportedCartridge _ => 17
  | .imageTooShort => 18
  | .unreadableImage => 19

/-- The numeric code of a fatal error (R221). -/
def faultCode (r : Fault) : Nat :=
  match r with
  | .unknownOpcode _ _ => 1
  | .busUnmapped _ _ => 2
  | .deviceRange _ => 3
  | .romWrite _ => 4

/-- `data()` of the cartridge controller: the whole image, read only (R67). -/
def cartridgeData (s : State) : List Byte :=
  ((List.range (min s.cfg.romLen 0x8000)).map (Memory.read s.mem)) ++ s.cfg.romRest

/-- The title field of the image: bytes 0x134-0x143 up to a NUL byte or the field boundary (R43, R71). -/
def cartridgeTitle (s : State) : List Byte :=
  ((List.range 16).map fun i => Memory.read s.mem (0x134 + i)).takeWhile (· != 0)

/-- The parameters with an opcode admitted to the table, if it is legal and was left out. -/
def admitOpcode (cfg : Config) (op : Byte) : Config :=
  if legalOpcode op && !populated cfg op then
    { cfg with implOpcodes :=
        match cfg.implOpcodes with
        | .docAttested => .custom [0xAF, 0xC3, op]
        | .full => .fullWithStop
        | .fullWithStop => .fullWithStop
        | .custom ops => .custom (op :: ops) }
  else cfg

/-- Put a byte where a fetch of the address reads it, whatever device that is: not a bus write, but the load of a
program from outside. An image too short for the address grows to hold it. -/
def placeByte (s : State) (a : Word) (v : Byte) : State :=
  match owner s.cfg a with
  | some .rom =>
    { s with mem := Memory.write s.mem a.toNat v, cfg := { s.cfg with romLen := max s.cfg.romLen (a.toNat + 1) } }
  | some .vram | some .wram | some .hram => s.setMem (Memory.write s.mem a.toNat v)
  | some .ppu =>
    if a.toNat < 0xFF40 then s.setMem (Memory.write s.mem a.toNat v)
    else if a = 0xFF44#16 then s.setPpu { s.ppu with ly := v }
    else s.setPpu (s.ppu.write a v)
  | some .interrupt => if a = 0xFF0F#16 then s.setIflag v else s.setIe v
  | none => s

/-- Bytes placed from an address on. -/
def placeBytes : List Byte → Word → State → State
  | [], _, s => s
  | v :: vs, a, s => placeBytes vs (a + 1#16) (placeByte s a v)

/-- The machine with an instruction's bytes placed at PC, its opcode admitted, running and with no fault recorded, so
that the next step runs it (log entry 4). -/
def withProgramBytes (s : State) (bytes : List Byte) : State :=
  let t := placeBytes bytes s.pc { s with halted := false, fault := none }
  { t with cfg := admitOpcode t.cfg (bytes.headD 0) }

end Sys2Proof.Machine
end

