-- ==== Sys2Proof/Machine/Operands.lean ====
section
/-! DEFINITION. Operand forms: the ALU operand (R150), the address forms (R107) and the conditions (R190). -/

namespace Sys2Proof.Machine

/-- The address in HL, of the `(HL)` forms (R94, R107). -/
def State.hl (s : State) : Word := s.pair .hl

/-- The address `0xFF00#16 + n` of LDH and of the `(C)` forms (R107). -/
def highPage (n : Byte) : Word := 0xFF00#16 + zext16 n

/-- The ALU operand: a register, the byte at `(HL)`, or an immediate already fetched (R150). -/
def operandValue (s : State) (o : AluOperand) : Except Fault Byte :=
  match o with
  | .reg r => .ok (s.reg r)
  | .atHL => readByte .read s s.hl
  | .imm n => .ok n

/-- `cond(i)` (R97, R190). -/
def condHolds (cc : Cond) (s : State) : Bool :=
  match cc with
  | .nz => !s.flags.z
  | .z => s.flags.z
  | .nc => !s.flags.c
  | .c => s.flags.c

/-- The target of a relative jump: PC, already past the instruction, plus the sign-extended displacement (R107, R194,
R202). -/
def relativeTarget (s : State) (e : Byte) : Word := s.pc + sext16 e

end Sys2Proof.Machine
end

