-- ==== Sys2Proof/Machine/Load16.lean ====
section
/-! DEFINITION. The 16-bit loads and the stack (R140-R146). -/

namespace Sys2Proof.Machine

/-- `rr[p] <- v`, or `SP <- v` (R140, R141, R180, R181). -/
def ldPairWord (op : Byte) (p : Pair) (v : Word) (s : State) : Out := .next ((s.setPair p v).charge op)

/-- `Push(rr[p])` (R143). -/
def pushPair (op : Byte) (p : StackPair) (s : State) : Out :=
  orFault (push (s.stackPair p) s) fun t => .next (t.charge op)

/-- `rr[p] <- Pop()` (R144). -/
def popPair (op : Byte) (p : StackPair) (s : State) : Out :=
  orFault (pop s) fun r => .next ((r.2.setStackPair p r.1).charge op)

/-- `AddSPe` into HL or SP, with its flags (R146, R183, R184). -/
def spPlus (op : Byte) (p : Pair) (e : Byte) (s : State) : Out :=
  .next (((s.setPair p (addSPeValue s.sp e)).setFlags (addSPeFlags s.sp e)).charge op)

/-- `LD BC,nn` (R140). -/
def execLdBCnn (nn : Word) (s : State) : Out := ldPairWord 0x01#8 .bc nn s

/-- `LD (nn),SP` (R142). -/
def execLdAtnnSP (nn : Word) (s : State) : Out := orFault (writeWord s nn s.sp) fun t => .next (t.charge 0x08#8)

/-- `LD DE,nn` (R140). -/
def execLdDEnn (nn : Word) (s : State) : Out := ldPairWord 0x11#8 .de nn s

/-- `LD HL,nn` (R140). -/
def execLdHLnn (nn : Word) (s : State) : Out := ldPairWord 0x21#8 .hl nn s

/-- `LD SP,nn` (R140). -/
def execLdSPnn (nn : Word) (s : State) : Out := ldPairWord 0x31#8 .sp nn s

/-- `POP BC` (R144). -/
def execPopBC (s : State) : Out := popPair 0xC1#8 .bc s

/-- `PUSH BC` (R143). -/
def execPushBC (s : State) : Out := pushPair 0xC5#8 .bc s

/-- `POP DE` (R144). -/
def execPopDE (s : State) : Out := popPair 0xD1#8 .de s

/-- `PUSH DE` (R143). -/
def execPushDE (s : State) : Out := pushPair 0xD5#8 .de s

/-- `POP HL` (R144). -/
def execPopHL (s : State) : Out := popPair 0xE1#8 .hl s

/-- `PUSH HL` (R143). -/
def execPushHL (s : State) : Out := pushPair 0xE5#8 .hl s

/-- `POP AF` (R144). -/
def execPopAF (s : State) : Out := popPair 0xF1#8 .af s

/-- `PUSH AF` (R143). -/
def execPushAF (s : State) : Out := pushPair 0xF5#8 .af s

/-- `LD HL,SP+e` (R146). -/
def execLdHLSPe (e : Byte) (s : State) : Out := spPlus 0xF8#8 .hl e s

/-- `LD SP,HL` (R141). -/
def execLdSPHL (s : State) : Out := ldPairWord 0xF9#8 .sp s.hl s

end Sys2Proof.Machine
end

