-- ==== Sys2Proof/Machine/Alu16.lean ====
section
/-! DEFINITION. The 16-bit arithmetic (R180-R184). -/

namespace Sys2Proof.Machine

/-- `ADD HL,rr` with the old HL and the operand (R182). -/
def addHL (op : Byte) (b : Word) (s : State) : Out :=
  .next (((s.setPair .hl (s.hl + b)).setFlags (addHLFlags s.cfg.hc16 s.hl b s.flags)).charge op)

/-- `INC BC` (R180). -/
def execIncBC (s : State) : Out := ldPairWord 0x03#8 .bc (s.pair .bc + 1#16) s

/-- `ADD HL,BC` (R182). -/
def execAddHLBC (s : State) : Out := addHL 0x09#8 (s.pair .bc) s

/-- `DEC BC` (R181). -/
def execDecBC (s : State) : Out := ldPairWord 0x0B#8 .bc (s.pair .bc - 1#16) s

/-- `INC DE` (R180). -/
def execIncDE (s : State) : Out := ldPairWord 0x13#8 .de (s.pair .de + 1#16) s

/-- `ADD HL,DE` (R182). -/
def execAddHLDE (s : State) : Out := addHL 0x19#8 (s.pair .de) s

/-- `DEC DE` (R181). -/
def execDecDE (s : State) : Out := ldPairWord 0x1B#8 .de (s.pair .de - 1#16) s

/-- `INC HL` (R180). -/
def execIncHL (s : State) : Out := ldPairWord 0x23#8 .hl (s.pair .hl + 1#16) s

/-- `ADD HL,HL` (R182). -/
def execAddHLHL (s : State) : Out := addHL 0x29#8 (s.pair .hl) s

/-- `DEC HL` (R181). -/
def execDecHL (s : State) : Out := ldPairWord 0x2B#8 .hl (s.pair .hl - 1#16) s

/-- `INC SP` (R180). -/
def execIncSP (s : State) : Out := ldPairWord 0x33#8 .sp (s.pair .sp + 1#16) s

/-- `ADD HL,SP` (R182). -/
def execAddHLSP (s : State) : Out := addHL 0x39#8 (s.pair .sp) s

/-- `DEC SP` (R181). -/
def execDecSP (s : State) : Out := ldPairWord 0x3B#8 .sp (s.pair .sp - 1#16) s

/-- `ADD SP,e` (R183). -/
def execAddSPe (e : Byte) (s : State) : Out := spPlus 0xE8#8 .sp e s

end Sys2Proof.Machine
end

