-- ==== Sys2Proof/Machine/Alu8.lean ====
section
/-! DEFINITION. The 8-bit arithmetic and logic (R150-R172). -/

namespace Sys2Proof.Machine

/-- `alu[y] s`: the operand is read before A is written (R150, R153-R160). -/
def aluOn (op : Byte) (o : AluOp) (s' : AluOperand) (s : State) : Out :=
  orFault (operandValue s s') fun v =>
    let r := aluResult o (s.reg .a) v s.flags.c
    .next (((if aluWritesA o then s.setReg .a r.value else s).setFlags r.flags).charge op)

/-- INC and DEC of a register (R161, R163). -/
def stepReg (op : Byte) (f : Byte → Flags → AluResult) (r : Reg8) (s : State) : Out :=
  let v := f (s.reg r) s.flags
  .next (((s.setReg r v.value).setFlags v.flags).charge op)

/-- INC and DEC of the byte at `(HL)`: one read, then one write (R73, R162, R164). -/
def stepAtHL (op : Byte) (f : Byte → Flags → AluResult) (s : State) : Out :=
  orFault (readByte .read s s.hl) fun v =>
    orFault (writeByte s s.hl (f v s.flags).value) fun t => .next ((t.setFlags (f v s.flags).flags).charge op)

/-- Write A and the flags (R165-R170). -/
def putA (op : Byte) (v : AluResult) (s : State) : Out := .next (((s.setReg .a v.value).setFlags v.flags).charge op)

/-- `INC B` (R161). -/
def execIncB (s : State) : Out := stepReg 0x04#8 inc8 .b s

/-- `DEC B` (R163). -/
def execDecB (s : State) : Out := stepReg 0x05#8 dec8 .b s

/-- `RLCA` (R165). -/
def execRlca (s : State) : Out := putA 0x07#8 (rlc8 (s.reg .a)) s

/-- `INC C` (R161). -/
def execIncC (s : State) : Out := stepReg 0x0C#8 inc8 .c s

/-- `DEC C` (R163). -/
def execDecC (s : State) : Out := stepReg 0x0D#8 dec8 .c s

/-- `RRCA` (R166). -/
def execRrca (s : State) : Out := putA 0x0F#8 (rrc8 (s.reg .a)) s

/-- `INC D` (R161). -/
def execIncD (s : State) : Out := stepReg 0x14#8 inc8 .d s

/-- `DEC D` (R163). -/
def execDecD (s : State) : Out := stepReg 0x15#8 dec8 .d s

/-- `RLA` (R167). -/
def execRla (s : State) : Out := putA 0x17#8 (rl8 (s.reg .a) s.flags.c) s

/-- `INC E` (R161). -/
def execIncE (s : State) : Out := stepReg 0x1C#8 inc8 .e s

/-- `DEC E` (R163). -/
def execDecE (s : State) : Out := stepReg 0x1D#8 dec8 .e s

/-- `RRA` (R168). -/
def execRra (s : State) : Out := putA 0x1F#8 (rr8 (s.reg .a) s.flags.c) s

/-- `INC H` (R161). -/
def execIncH (s : State) : Out := stepReg 0x24#8 inc8 .h s

/-- `DEC H` (R163). -/
def execDecH (s : State) : Out := stepReg 0x25#8 dec8 .h s

/-- `DAA` (R169). -/
def execDaa (s : State) : Out := putA 0x27#8 (daa8 (s.reg .a) s.flags) s

/-- `INC L` (R161). -/
def execIncL (s : State) : Out := stepReg 0x2C#8 inc8 .l s

/-- `DEC L` (R163). -/
def execDecL (s : State) : Out := stepReg 0x2D#8 dec8 .l s

/-- `CPL` (R170). -/
def execCpl (s : State) : Out := putA 0x2F#8 ⟨~~~(s.reg .a), cplFlags s.flags⟩ s

/-- `INC (HL)` (R162). -/
def execIncAtHL (s : State) : Out := stepAtHL 0x34#8 inc8 s

/-- `DEC (HL)` (R164). -/
def execDecAtHL (s : State) : Out := stepAtHL 0x35#8 dec8 s

/-- `SCF` (R171). -/
def execScf (s : State) : Out := .next ((s.setFlags (scfFlags s.flags)).charge 0x37#8)

/-- `INC A` (R161). -/
def execIncA (s : State) : Out := stepReg 0x3C#8 inc8 .a s

/-- `DEC A` (R163). -/
def execDecA (s : State) : Out := stepReg 0x3D#8 dec8 .a s

/-- `CCF` (R172). -/
def execCcf (s : State) : Out := .next ((s.setFlags (ccfFlags s.flags)).charge 0x3F#8)

/-- `ADD A,B` (R153). -/
def execAddAB (s : State) : Out := aluOn 0x80#8 .add (.reg .b) s

/-- `ADD A,C` (R153). -/
def execAddAC (s : State) : Out := aluOn 0x81#8 .add (.reg .c) s

/-- `ADD A,D` (R153). -/
def execAddAD (s : State) : Out := aluOn 0x82#8 .add (.reg .d) s

/-- `ADD A,E` (R153). -/
def execAddAE (s : State) : Out := aluOn 0x83#8 .add (.reg .e) s

/-- `ADD A,H` (R153). -/
def execAddAH (s : State) : Out := aluOn 0x84#8 .add (.reg .h) s

/-- `ADD A,L` (R153). -/
def execAddAL (s : State) : Out := aluOn 0x85#8 .add (.reg .l) s

/-- `ADD A,(HL)` (R153). -/
def execAddAAtHL (s : State) : Out := aluOn 0x86#8 .add .atHL s

/-- `ADD A,A` (R153). -/
def execAddAA (s : State) : Out := aluOn 0x87#8 .add (.reg .a) s

/-- `ADC A,B` (R154). -/
def execAdcAB (s : State) : Out := aluOn 0x88#8 .adc (.reg .b) s

/-- `ADC A,C` (R154). -/
def execAdcAC (s : State) : Out := aluOn 0x89#8 .adc (.reg .c) s

/-- `ADC A,D` (R154). -/
def execAdcAD (s : State) : Out := aluOn 0x8A#8 .adc (.reg .d) s

/-- `ADC A,E` (R154). -/
def execAdcAE (s : State) : Out := aluOn 0x8B#8 .adc (.reg .e) s

/-- `ADC A,H` (R154). -/
def execAdcAH (s : State) : Out := aluOn 0x8C#8 .adc (.reg .h) s

/-- `ADC A,L` (R154). -/
def execAdcAL (s : State) : Out := aluOn 0x8D#8 .adc (.reg .l) s

/-- `ADC A,(HL)` (R154). -/
def execAdcAAtHL (s : State) : Out := aluOn 0x8E#8 .adc .atHL s

/-- `ADC A,A` (R154). -/
def execAdcAA (s : State) : Out := aluOn 0x8F#8 .adc (.reg .a) s

/-- `SUB B` (R155). -/
def execSubB (s : State) : Out := aluOn 0x90#8 .sub (.reg .b) s

/-- `SUB C` (R155). -/
def execSubC (s : State) : Out := aluOn 0x91#8 .sub (.reg .c) s

/-- `SUB D` (R155). -/
def execSubD (s : State) : Out := aluOn 0x92#8 .sub (.reg .d) s

/-- `SUB E` (R155). -/
def execSubE (s : State) : Out := aluOn 0x93#8 .sub (.reg .e) s

/-- `SUB H` (R155). -/
def execSubH (s : State) : Out := aluOn 0x94#8 .sub (.reg .h) s

/-- `SUB L` (R155). -/
def execSubL (s : State) : Out := aluOn 0x95#8 .sub (.reg .l) s

/-- `SUB (HL)` (R155). -/
def execSubAtHL (s : State) : Out := aluOn 0x96#8 .sub .atHL s

/-- `SUB A` (R155). -/
def execSubA (s : State) : Out := aluOn 0x97#8 .sub (.reg .a) s

/-- `SBC A,B` (R156). -/
def execSbcAB (s : State) : Out := aluOn 0x98#8 .sbc (.reg .b) s

/-- `SBC A,C` (R156). -/
def execSbcAC (s : State) : Out := aluOn 0x99#8 .sbc (.reg .c) s

/-- `SBC A,D` (R156). -/
def execSbcAD (s : State) : Out := aluOn 0x9A#8 .sbc (.reg .d) s

/-- `SBC A,E` (R156). -/
def execSbcAE (s : State) : Out := aluOn 0x9B#8 .sbc (.reg .e) s

/-- `SBC A,H` (R156). -/
def execSbcAH (s : State) : Out := aluOn 0x9C#8 .sbc (.reg .h) s

/-- `SBC A,L` (R156). -/
def execSbcAL (s : State) : Out := aluOn 0x9D#8 .sbc (.reg .l) s

/-- `SBC A,(HL)` (R156). -/
def execSbcAAtHL (s : State) : Out := aluOn 0x9E#8 .sbc .atHL s

/-- `SBC A,A` (R156). -/
def execSbcAA (s : State) : Out := aluOn 0x9F#8 .sbc (.reg .a) s

/-- `AND B` (R157). -/
def execAndB (s : State) : Out := aluOn 0xA0#8 .and (.reg .b) s

/-- `AND C` (R157). -/
def execAndC (s : State) : Out := aluOn 0xA1#8 .and (.reg .c) s

/-- `AND D` (R157). -/
def execAndD (s : State) : Out := aluOn 0xA2#8 .and (.reg .d) s

/-- `AND E` (R157). -/
def execAndE (s : State) : Out := aluOn 0xA3#8 .and (.reg .e) s

/-- `AND H` (R157). -/
def execAndH (s : State) : Out := aluOn 0xA4#8 .and (.reg .h) s

/-- `AND L` (R157). -/
def execAndL (s : State) : Out := aluOn 0xA5#8 .and (.reg .l) s

/-- `AND (HL)` (R157). -/
def execAndAtHL (s : State) : Out := aluOn 0xA6#8 .and .atHL s

/-- `AND A` (R157). -/
def execAndA (s : State) : Out := aluOn 0xA7#8 .and (.reg .a) s

/-- `XOR B` (R158). -/
def execXorB (s : State) : Out := aluOn 0xA8#8 .xor (.reg .b) s

/-- `XOR C` (R158). -/
def execXorC (s : State) : Out := aluOn 0xA9#8 .xor (.reg .c) s

/-- `XOR D` (R158). -/
def execXorD (s : State) : Out := aluOn 0xAA#8 .xor (.reg .d) s

/-- `XOR E` (R158). -/
def execXorE (s : State) : Out := aluOn 0xAB#8 .xor (.reg .e) s

/-- `XOR H` (R158). -/
def execXorH (s : State) : Out := aluOn 0xAC#8 .xor (.reg .h) s

/-- `XOR L` (R158). -/
def execXorL (s : State) : Out := aluOn 0xAD#8 .xor (.reg .l) s

/-- `XOR (HL)` (R158). -/
def execXorAtHL (s : State) : Out := aluOn 0xAE#8 .xor .atHL s

/-- `XOR A` (R158). -/
def execXorA (s : State) : Out := aluOn 0xAF#8 .xor (.reg .a) s

/-- `OR B` (R159). -/
def execOrB (s : State) : Out := aluOn 0xB0#8 .or (.reg .b) s

/-- `OR C` (R159). -/
def execOrC (s : State) : Out := aluOn 0xB1#8 .or (.reg .c) s

/-- `OR D` (R159). -/
def execOrD (s : State) : Out := aluOn 0xB2#8 .or (.reg .d) s

/-- `OR E` (R159). -/
def execOrE (s : State) : Out := aluOn 0xB3#8 .or (.reg .e) s

/-- `OR H` (R159). -/
def execOrH (s : State) : Out := aluOn 0xB4#8 .or (.reg .h) s

/-- `OR L` (R159). -/
def execOrL (s : State) : Out := aluOn 0xB5#8 .or (.reg .l) s

/-- `OR (HL)` (R159). -/
def execOrAtHL (s : State) : Out := aluOn 0xB6#8 .or .atHL s

/-- `OR A` (R159). -/
def execOrA (s : State) : Out := aluOn 0xB7#8 .or (.reg .a) s

/-- `CP B` (R160). -/
def execCpB (s : State) : Out := aluOn 0xB8#8 .cp (.reg .b) s

/-- `CP C` (R160). -/
def execCpC (s : State) : Out := aluOn 0xB9#8 .cp (.reg .c) s

/-- `CP D` (R160). -/
def execCpD (s : State) : Out := aluOn 0xBA#8 .cp (.reg .d) s

/-- `CP E` (R160). -/
def execCpE (s : State) : Out := aluOn 0xBB#8 .cp (.reg .e) s

/-- `CP H` (R160). -/
def execCpH (s : State) : Out := aluOn 0xBC#8 .cp (.reg .h) s

/-- `CP L` (R160). -/
def execCpL (s : State) : Out := aluOn 0xBD#8 .cp (.reg .l) s

/-- `CP (HL)` (R160). -/
def execCpAtHL (s : State) : Out := aluOn 0xBE#8 .cp .atHL s

/-- `CP A` (R160). -/
def execCpA (s : State) : Out := aluOn 0xBF#8 .cp (.reg .a) s

/-- `ADD A,n` (R153). -/
def execAddAn (n : Byte) (s : State) : Out := aluOn 0xC6#8 .add (.imm n) s

/-- `ADC A,n` (R154). -/
def execAdcAn (n : Byte) (s : State) : Out := aluOn 0xCE#8 .adc (.imm n) s

/-- `SUB n` (R155). -/
def execSubn (n : Byte) (s : State) : Out := aluOn 0xD6#8 .sub (.imm n) s

/-- `SBC A,n` (R156). -/
def execSbcAn (n : Byte) (s : State) : Out := aluOn 0xDE#8 .sbc (.imm n) s

/-- `AND n` (R157). -/
def execAndn (n : Byte) (s : State) : Out := aluOn 0xE6#8 .and (.imm n) s

/-- `XOR n` (R158). -/
def execXorn (n : Byte) (s : State) : Out := aluOn 0xEE#8 .xor (.imm n) s

/-- `OR n` (R159). -/
def execOrn (n : Byte) (s : State) : Out := aluOn 0xF6#8 .or (.imm n) s

/-- `CP n` (R160). -/
def execCpn (n : Byte) (s : State) : Out := aluOn 0xFE#8 .cp (.imm n) s

end Sys2Proof.Machine
end

