-- ==== Sys2Proof/Machine/Control.lean ====
section
/-! DEFINITION. The control transfers (R190-R203). No instruction of the family writes F, and no target is checked (R202). -/

namespace Sys2Proof.Machine

/-- `PC <- target` (R191, R193, R194). -/
def jumpTo (op : Byte) (target : Word) (s : State) : Out := .next ((s.setPC target).charge op)

/-- A conditional instruction: its taken effect if the condition holds, else only the not-taken cost (R192, R195, R197,
R199). -/
def ifCond (op : Byte) (cc : Cond) (taken : Out) (s : State) : Out :=
  if condHolds cc s then taken else .next (s.chargeNotTaken op)

/-- `Push(PC); PC <- target` (R196, R201). -/
def callTo (op : Byte) (target : Word) (s : State) : Out :=
  orFault (push s.pc s) fun t => .next ((t.setPC target).charge op)

/-- `PC <- Pop()` (R198). -/
def popPC (op : Byte) (s : State) : Out := orFault (pop s) fun r => .next ((r.2.setPC r.1).charge op)

/-- `JR e` (R194). -/
def execJre (e : Byte) (s : State) : Out := jumpTo 0x18#8 (relativeTarget s e) s

/-- `JR NZ,e` (R195). -/
def execJrNZe (e : Byte) (s : State) : Out := ifCond 0x20#8 .nz (jumpTo 0x20#8 (relativeTarget s e) s) s

/-- `JR Z,e` (R195). -/
def execJrZe (e : Byte) (s : State) : Out := ifCond 0x28#8 .z (jumpTo 0x28#8 (relativeTarget s e) s) s

/-- `JR NC,e` (R195). -/
def execJrNCe (e : Byte) (s : State) : Out := ifCond 0x30#8 .nc (jumpTo 0x30#8 (relativeTarget s e) s) s

/-- `JR C,e` (R195). -/
def execJrCe (e : Byte) (s : State) : Out := ifCond 0x38#8 .c (jumpTo 0x38#8 (relativeTarget s e) s) s

/-- `RET NZ` (R199). -/
def execRetNZ (s : State) : Out := ifCond 0xC0#8 .nz (popPC 0xC0#8 s) s

/-- `JP NZ,nn` (R192). -/
def execJpNZnn (nn : Word) (s : State) : Out := ifCond 0xC2#8 .nz (jumpTo 0xC2#8 nn s) s

/-- `JP nn` (R191). -/
def execJpnn (nn : Word) (s : State) : Out := jumpTo 0xC3#8 nn s

/-- `CALL NZ,nn` (R197). -/
def execCallNZnn (nn : Word) (s : State) : Out := ifCond 0xC4#8 .nz (callTo 0xC4#8 nn s) s

/-- `RST 0x00` (R201). -/
def execRst00 (s : State) : Out := callTo 0xC7#8 0x0000#16 s

/-- `RET Z` (R199). -/
def execRetZ (s : State) : Out := ifCond 0xC8#8 .z (popPC 0xC8#8 s) s

/-- `RET` (R198). -/
def execRet (s : State) : Out := popPC 0xC9#8 s

/-- `JP Z,nn` (R192). -/
def execJpZnn (nn : Word) (s : State) : Out := ifCond 0xCA#8 .z (jumpTo 0xCA#8 nn s) s

/-- `CALL Z,nn` (R197). -/
def execCallZnn (nn : Word) (s : State) : Out := ifCond 0xCC#8 .z (callTo 0xCC#8 nn s) s

/-- `CALL nn` (R196). -/
def execCallnn (nn : Word) (s : State) : Out := callTo 0xCD#8 nn s

/-- `RST 0x08` (R201). -/
def execRst08 (s : State) : Out := callTo 0xCF#8 0x0008#16 s

/-- `RET NC` (R199). -/
def execRetNC (s : State) : Out := ifCond 0xD0#8 .nc (popPC 0xD0#8 s) s

/-- `JP NC,nn` (R192). -/
def execJpNCnn (nn : Word) (s : State) : Out := ifCond 0xD2#8 .nc (jumpTo 0xD2#8 nn s) s

/-- `CALL NC,nn` (R197). -/
def execCallNCnn (nn : Word) (s : State) : Out := ifCond 0xD4#8 .nc (callTo 0xD4#8 nn s) s

/-- `RST 0x10` (R201). -/
def execRst10 (s : State) : Out := callTo 0xD7#8 0x0010#16 s

/-- `RET C` (R199). -/
def execRetC (s : State) : Out := ifCond 0xD8#8 .c (popPC 0xD8#8 s) s

/-- `RETI` (R200). -/
def execReti (s : State) : Out := orFault (returnFromInterrupt s) fun t => .next (t.charge 0xD9#8)

/-- `JP C,nn` (R192). -/
def execJpCnn (nn : Word) (s : State) : Out := ifCond 0xDA#8 .c (jumpTo 0xDA#8 nn s) s

/-- `CALL C,nn` (R197). -/
def execCallCnn (nn : Word) (s : State) : Out := ifCond 0xDC#8 .c (callTo 0xDC#8 nn s) s

/-- `RST 0x18` (R201). -/
def execRst18 (s : State) : Out := callTo 0xDF#8 0x0018#16 s

/-- `RST 0x20` (R201). -/
def execRst20 (s : State) : Out := callTo 0xE7#8 0x0020#16 s

/-- `JP HL` (R193). -/
def execJpHL (s : State) : Out := jumpTo 0xE9#8 s.hl s

/-- `RST 0x28` (R201). -/
def execRst28 (s : State) : Out := callTo 0xEF#8 0x0028#16 s

/-- `RST 0x30` (R201). -/
def execRst30 (s : State) : Out := callTo 0xF7#8 0x0030#16 s

/-- `RST 0x38` (R201). -/
def execRst38 (s : State) : Out := callTo 0xFF#8 0x0038#16 s

end Sys2Proof.Machine
end

