-- ==== Sys2Proof/Machine/Load8.lean ====
section
/-! DEFINITION. The 8-bit loads and stores (R120-R138). No instruction of the family writes F. Every meaning starts with PC past
the instruction, its immediate fetched (R91, R92; log entry 3). -/

namespace Sys2Proof.Machine

/-- `r[dst] <- r[src]` (R120). -/
def ldRegReg (op : Byte) (dst src : Reg8) (s : State) : Out := .next ((s.setReg dst (s.reg src)).charge op)

/-- `r[dst] <- n` (R123). -/
def ldRegImm (op : Byte) (dst : Reg8) (n : Byte) (s : State) : Out := .next ((s.setReg dst n).charge op)

/-- `r[dst] <- MemRead(a, 1)` (R121, R125, R126, R129, R131, R133). -/
def ldRegAt (op : Byte) (dst : Reg8) (a : Word) (s : State) : Out :=
  orFault (readByte .read s a) fun v => .next ((s.setReg dst v).charge op)

/-- `MemWrite(a, 1, v)` (R124). -/
def storeByte (op : Byte) (a : Word) (v : Byte) (s : State) : Out :=
  orFault (writeByte s a v) fun t => .next (t.charge op)

/-- `MemWrite(a, 1, r[src])` (R122, R127, R128, R130, R132, R134). -/
def ldAtReg (op : Byte) (a : Word) (src : Reg8) (s : State) : Out := storeByte op a (s.reg src) s

/-- `r[A] <- MemRead(rr[HL], 1); rr[HL] <- next` (R135, R136). -/
def ldAAtHLThen (op : Byte) (next : Word) (s : State) : Out :=
  orFault (readByte .read s s.hl) fun v => .next (((s.setReg .a v).setPair .hl next).charge op)

/-- `MemWrite(rr[HL], 1, r[A]); rr[HL] <- next` (R137, R138). -/
def ldAtHLAThen (op : Byte) (next : Word) (s : State) : Out :=
  orFault (writeByte s s.hl (s.reg .a)) fun t => .next ((t.setPair .hl next).charge op)

/-- `LD (BC),A` (R127). -/
def execLdAtBCA (s : State) : Out := ldAtReg 0x02#8 (s.pair .bc) .a s

/-- `LD B,n` (R123). -/
def execLdBn (n : Byte) (s : State) : Out := ldRegImm 0x06#8 .b n s

/-- `LD A,(BC)` (R125). -/
def execLdAAtBC (s : State) : Out := ldRegAt 0x0A#8 .a (s.pair .bc) s

/-- `LD C,n` (R123). -/
def execLdCn (n : Byte) (s : State) : Out := ldRegImm 0x0E#8 .c n s

/-- `LD (DE),A` (R128). -/
def execLdAtDEA (s : State) : Out := ldAtReg 0x12#8 (s.pair .de) .a s

/-- `LD D,n` (R123). -/
def execLdDn (n : Byte) (s : State) : Out := ldRegImm 0x16#8 .d n s

/-- `LD A,(DE)` (R126). -/
def execLdAAtDE (s : State) : Out := ldRegAt 0x1A#8 .a (s.pair .de) s

/-- `LD E,n` (R123). -/
def execLdEn (n : Byte) (s : State) : Out := ldRegImm 0x1E#8 .e n s

/-- `LD (HL+),A` (R137). -/
def execLdAtHLIncA (s : State) : Out := ldAtHLAThen 0x22#8 (s.hl + 1#16) s

/-- `LD H,n` (R123). -/
def execLdHn (n : Byte) (s : State) : Out := ldRegImm 0x26#8 .h n s

/-- `LD A,(HL+)` (R135). -/
def execLdAAtHLInc (s : State) : Out := ldAAtHLThen 0x2A#8 (s.hl + 1#16) s

/-- `LD L,n` (R123). -/
def execLdLn (n : Byte) (s : State) : Out := ldRegImm 0x2E#8 .l n s

/-- `LD (HL-),A` (R138). -/
def execLdAtHLDecA (s : State) : Out := ldAtHLAThen 0x32#8 (s.hl - 1#16) s

/-- `LD (HL),n` (R124). -/
def execLdAtHLn (n : Byte) (s : State) : Out := storeByte 0x36#8 s.hl n s

/-- `LD A,(HL-)` (R136). -/
def execLdAAtHLDec (s : State) : Out := ldAAtHLThen 0x3A#8 (s.hl - 1#16) s

/-- `LD A,n` (R123). -/
def execLdAn (n : Byte) (s : State) : Out := ldRegImm 0x3E#8 .a n s

/-- `LD B,B` (R120). -/
def execLdBB (s : State) : Out := ldRegReg 0x40#8 .b .b s

/-- `LD B,C` (R120). -/
def execLdBC (s : State) : Out := ldRegReg 0x41#8 .b .c s

/-- `LD B,D` (R120). -/
def execLdBD (s : State) : Out := ldRegReg 0x42#8 .b .d s

/-- `LD B,E` (R120). -/
def execLdBE (s : State) : Out := ldRegReg 0x43#8 .b .e s

/-- `LD B,H` (R120). -/
def execLdBH (s : State) : Out := ldRegReg 0x44#8 .b .h s

/-- `LD B,L` (R120). -/
def execLdBL (s : State) : Out := ldRegReg 0x45#8 .b .l s

/-- `LD B,(HL)` (R121). -/
def execLdBAtHL (s : State) : Out := ldRegAt 0x46#8 .b s.hl s

/-- `LD B,A` (R120). -/
def execLdBA (s : State) : Out := ldRegReg 0x47#8 .b .a s

/-- `LD C,B` (R120). -/
def execLdCB (s : State) : Out := ldRegReg 0x48#8 .c .b s

/-- `LD C,C` (R120). -/
def execLdCC (s : State) : Out := ldRegReg 0x49#8 .c .c s

/-- `LD C,D` (R120). -/
def execLdCD (s : State) : Out := ldRegReg 0x4A#8 .c .d s

/-- `LD C,E` (R120). -/
def execLdCE (s : State) : Out := ldRegReg 0x4B#8 .c .e s

/-- `LD C,H` (R120). -/
def execLdCH (s : State) : Out := ldRegReg 0x4C#8 .c .h s

/-- `LD C,L` (R120). -/
def execLdCL (s : State) : Out := ldRegReg 0x4D#8 .c .l s

/-- `LD C,(HL)` (R121). -/
def execLdCAtHL (s : State) : Out := ldRegAt 0x4E#8 .c s.hl s

/-- `LD C,A` (R120). -/
def execLdCA (s : State) : Out := ldRegReg 0x4F#8 .c .a s

/-- `LD D,B` (R120). -/
def execLdDB (s : State) : Out := ldRegReg 0x50#8 .d .b s

/-- `LD D,C` (R120). -/
def execLdDC (s : State) : Out := ldRegReg 0x51#8 .d .c s

/-- `LD D,D` (R120). -/
def execLdDD (s : State) : Out := ldRegReg 0x52#8 .d .d s

/-- `LD D,E` (R120). -/
def execLdDE (s : State) : Out := ldRegReg 0x53#8 .d .e s

/-- `LD D,H` (R120). -/
def execLdDH (s : State) : Out := ldRegReg 0x54#8 .d .h s

/-- `LD D,L` (R120). -/
def execLdDL (s : State) : Out := ldRegReg 0x55#8 .d .l s

/-- `LD D,(HL)` (R121). -/
def execLdDAtHL (s : State) : Out := ldRegAt 0x56#8 .d s.hl s

/-- `LD D,A` (R120). -/
def execLdDA (s : State) : Out := ldRegReg 0x57#8 .d .a s

/-- `LD E,B` (R120). -/
def execLdEB (s : State) : Out := ldRegReg 0x58#8 .e .b s

/-- `LD E,C` (R120). -/
def execLdEC (s : State) : Out := ldRegReg 0x59#8 .e .c s

/-- `LD E,D` (R120). -/
def execLdED (s : State) : Out := ldRegReg 0x5A#8 .e .d s

/-- `LD E,E` (R120). -/
def execLdEE (s : State) : Out := ldRegReg 0x5B#8 .e .e s

/-- `LD E,H` (R120). -/
def execLdEH (s : State) : Out := ldRegReg 0x5C#8 .e .h s

/-- `LD E,L` (R120). -/
def execLdEL (s : State) : Out := ldRegReg 0x5D#8 .e .l s

/-- `LD E,(HL)` (R121). -/
def execLdEAtHL (s : State) : Out := ldRegAt 0x5E#8 .e s.hl s

/-- `LD E,A` (R120). -/
def execLdEA (s : State) : Out := ldRegReg 0x5F#8 .e .a s

/-- `LD H,B` (R120). -/
def execLdHB (s : State) : Out := ldRegReg 0x60#8 .h .b s

/-- `LD H,C` (R120). -/
def execLdHC (s : State) : Out := ldRegReg 0x61#8 .h .c s

/-- `LD H,D` (R120). -/
def execLdHD (s : State) : Out := ldRegReg 0x62#8 .h .d s

/-- `LD H,E` (R120). -/
def execLdHE (s : State) : Out := ldRegReg 0x63#8 .h .e s

/-- `LD H,H` (R120). -/
def execLdHH (s : State) : Out := ldRegReg 0x64#8 .h .h s

/-- `LD H,L` (R120). -/
def execLdHL (s : State) : Out := ldRegReg 0x65#8 .h .l s

/-- `LD H,(HL)` (R121). -/
def execLdHAtHL (s : State) : Out := ldRegAt 0x66#8 .h s.hl s

/-- `LD H,A` (R120). -/
def execLdHA (s : State) : Out := ldRegReg 0x67#8 .h .a s

/-- `LD L,B` (R120). -/
def execLdLB (s : State) : Out := ldRegReg 0x68#8 .l .b s

/-- `LD L,C` (R120). -/
def execLdLC (s : State) : Out := ldRegReg 0x69#8 .l .c s

/-- `LD L,D` (R120). -/
def execLdLD (s : State) : Out := ldRegReg 0x6A#8 .l .d s

/-- `LD L,E` (R120). -/
def execLdLE (s : State) : Out := ldRegReg 0x6B#8 .l .e s

/-- `LD L,H` (R120). -/
def execLdLH (s : State) : Out := ldRegReg 0x6C#8 .l .h s

/-- `LD L,L` (R120). -/
def execLdLL (s : State) : Out := ldRegReg 0x6D#8 .l .l s

/-- `LD L,(HL)` (R121). -/
def execLdLAtHL (s : State) : Out := ldRegAt 0x6E#8 .l s.hl s

/-- `LD L,A` (R120). -/
def execLdLA (s : State) : Out := ldRegReg 0x6F#8 .l .a s

/-- `LD (HL),B` (R122). -/
def execLdAtHLB (s : State) : Out := ldAtReg 0x70#8 s.hl .b s

/-- `LD (HL),C` (R122). -/
def execLdAtHLC (s : State) : Out := ldAtReg 0x71#8 s.hl .c s

/-- `LD (HL),D` (R122). -/
def execLdAtHLD (s : State) : Out := ldAtReg 0x72#8 s.hl .d s

/-- `LD (HL),E` (R122). -/
def execLdAtHLE (s : State) : Out := ldAtReg 0x73#8 s.hl .e s

/-- `LD (HL),H` (R122). -/
def execLdAtHLH (s : State) : Out := ldAtReg 0x74#8 s.hl .h s

/-- `LD (HL),L` (R122). -/
def execLdAtHLL (s : State) : Out := ldAtReg 0x75#8 s.hl .l s

/-- `LD (HL),A` (R122). -/
def execLdAtHLA (s : State) : Out := ldAtReg 0x77#8 s.hl .a s

/-- `LD A,B` (R120). -/
def execLdAB (s : State) : Out := ldRegReg 0x78#8 .a .b s

/-- `LD A,C` (R120). -/
def execLdAC (s : State) : Out := ldRegReg 0x79#8 .a .c s

/-- `LD A,D` (R120). -/
def execLdAD (s : State) : Out := ldRegReg 0x7A#8 .a .d s

/-- `LD A,E` (R120). -/
def execLdAE (s : State) : Out := ldRegReg 0x7B#8 .a .e s

/-- `LD A,H` (R120). -/
def execLdAH (s : State) : Out := ldRegReg 0x7C#8 .a .h s

/-- `LD A,L` (R120). -/
def execLdAL (s : State) : Out := ldRegReg 0x7D#8 .a .l s

/-- `LD A,(HL)` (R121). -/
def execLdAAtHL (s : State) : Out := ldRegAt 0x7E#8 .a s.hl s

/-- `LD A,A` (R120). -/
def execLdAA (s : State) : Out := ldRegReg 0x7F#8 .a .a s

/-- `LDH (n),A` (R132). -/
def execLdhAtnA (n : Byte) (s : State) : Out := ldAtReg 0xE0#8 (highPage n) .a s

/-- `LD (C),A` (R134). -/
def execLdAtCA (s : State) : Out := ldAtReg 0xE2#8 (highPage (s.reg .c)) .a s

/-- `LD (nn),A` (R130). -/
def execLdAtnnA (nn : Word) (s : State) : Out := ldAtReg 0xEA#8 nn .a s

/-- `LDH A,(n)` (R131). -/
def execLdhAAtn (n : Byte) (s : State) : Out := ldRegAt 0xF0#8 .a (highPage n) s

/-- `LD A,(C)` (R133). -/
def execLdAAtC (s : State) : Out := ldRegAt 0xF2#8 .a (highPage (s.reg .c)) s

/-- `LD A,(nn)` (R129). -/
def execLdAAtnn (nn : Word) (s : State) : Out := ldRegAt 0xFA#8 .a nn s

end Sys2Proof.Machine
end

