-- ==== Sys2Proof/Machine/System.lean ====
section
/-! DEFINITION. The system and control instructions (R210-R214), and the rows that spell no instruction (R215). -/

namespace Sys2Proof.Machine

/-- `Fatal(UnknownOpcode)` with the address of the opcode byte, which is one before PC (R215). -/
def unknownOpcodeAt (op : Byte) (s : State) : Out := .fault (.unknownOpcode op (s.pc - 1#16))

/-- `NOP` (R210). -/
def execNop (s : State) : Out := .next (s.charge 0x00#8)

/-- `STOP` (R212). -/
def execStop (_n : Byte) (s : State) : Out := .next ((s.setHalted true).charge 0x10#8)

/-- `HALT` (R211). -/
def execHalt (s : State) : Out := .next ((s.setHalted true).charge 0x76#8)

/-- `(CB prefix, not implemented)` (R215). -/
def execCbPrefix (s : State) : Out := unknownOpcodeAt 0xCB#8 s

/-- `the illegal byte 0xD3` (R215). -/
def execIllegalD3 (s : State) : Out := unknownOpcodeAt 0xD3#8 s

/-- `the illegal byte 0xDB` (R215). -/
def execIllegalDB (s : State) : Out := unknownOpcodeAt 0xDB#8 s

/-- `the illegal byte 0xDD` (R215). -/
def execIllegalDD (s : State) : Out := unknownOpcodeAt 0xDD#8 s

/-- `the illegal byte 0xE3` (R215). -/
def execIllegalE3 (s : State) : Out := unknownOpcodeAt 0xE3#8 s

/-- `the illegal byte 0xE4` (R215). -/
def execIllegalE4 (s : State) : Out := unknownOpcodeAt 0xE4#8 s

/-- `the illegal byte 0xEB` (R215). -/
def execIllegalEB (s : State) : Out := unknownOpcodeAt 0xEB#8 s

/-- `the illegal byte 0xEC` (R215). -/
def execIllegalEC (s : State) : Out := unknownOpcodeAt 0xEC#8 s

/-- `the illegal byte 0xED` (R215). -/
def execIllegalED (s : State) : Out := unknownOpcodeAt 0xED#8 s

/-- `DI` (R213). -/
def execDi (s : State) : Out := .next ((s.setIme false).charge 0xF3#8)

/-- `the illegal byte 0xF4` (R215). -/
def execIllegalF4 (s : State) : Out := unknownOpcodeAt 0xF4#8 s

/-- `EI` (R214). -/
def execEi (s : State) : Out := .next ((s.setIme true).charge 0xFB#8)

/-- `the illegal byte 0xFC` (R215). -/
def execIllegalFC (s : State) : Out := unknownOpcodeAt 0xFC#8 s

/-- `the illegal byte 0xFD` (R215). -/
def execIllegalFD (s : State) : Out := unknownOpcodeAt 0xFD#8 s

end Sys2Proof.Machine
end

