-- ==== Sys2Proof/Machine/Ppu.lean ====
section
/-! DEFINITION. The picture unit: its step, the line counter and vertical blank, and background rendering (R250-R266). -/

namespace Sys2Proof.Machine

/-- A byte of VRAM, as the renderer reads it. Every address it computes lies in 0x8000-0x9FFF, where the bus read answers
the same byte (R256). -/
def vramByte (s : State) (a : Nat) : Byte := Memory.read s.mem a

/-- The base of the active tile map: LCDC bit 3 (R34, R257). -/
def mapBase (lcdc : Byte) : Nat := if lcdc.getLsbD 3 then 0x9C00 else 0x9800

/-- The address of a row of a tile: LCDC bit 4 selects unsigned indices from 0x8000, else signed ones from 0x9000 (R34,
R258). -/
def tileRowAddr (lcdc tile : Byte) (row : Nat) : Nat :=
  if lcdc.getLsbD 4 then 0x8000 + tile.toNat * 16 + row * 2
  else ((0x9000 : Int) + tile.toInt * 16 + row * 2).toNat

/-- The palette index of a column: the first byte is the low plane, bit 7 the leftmost pixel (R259). -/
def pixelIndex (lo hi : Byte) (column : Nat) : Nat :=
  2 * (hi.getLsbD (7 - column)).toNat + (lo.getLsbD (7 - column)).toNat

/-- The shade of a palette index (R39, R260). -/
def shade (bgp : Byte) (index : Nat) : Shade := (bgp >>> (2 * index)).setWidth 2

/-- The address of the tile index of a pixel of the scrolled background, both coordinates modulo 256 (R256, R257). -/
def tileIndexAddr (p : Ppu) (ly x : Nat) : Nat :=
  mapBase p.lcdc + (p.scy.toNat + ly) % 256 / 8 * 32 + (p.scx.toNat + x) % 256 / 8

/-- The address of the low plane's byte of a pixel, given its tile index; the high plane's byte follows (R256, R258). -/
def pixelRowAddr (p : Ppu) (tile : Byte) (ly : Nat) : Nat := tileRowAddr p.lcdc tile ((p.scy.toNat + ly) % 256 % 8)

/-- The shade of the pixel `x` of line `ly` (R256-R260). -/
def pixelShade (s : State) (ly x : Nat) : Shade :=
  let rowAddr := pixelRowAddr s.ppu (vramByte s (tileIndexAddr s.ppu ly x)) ly
  shade s.ppu.bgp (pixelIndex (vramByte s rowAddr) (vramByte s (rowAddr + 1)) ((s.ppu.scx.toNat + x) % 256 % 8))

/-- The 160 pixels of a line (R256). -/
def renderedLine (s : State) (ly : Nat) : Line := ⟨((List.range 160).map (pixelShade s ly)).toArray, by simp⟩

/-- `RenderLine(ly)` and `WriteLine`: one row of the frame buffer in one indivisible update (R256, R261). A line past the
visible ones has no row. -/
def renderLine (ly : Nat) (s : State) : State :=
  if h : ly < 144 then { s with fb := s.fb.set ly (renderedLine s ly) h } else s

/-- One line advance: LY is the next line modulo 154 (R253); on reaching 144 the VBlank request and one frame-ready event
(R254, R263). -/
def advanceLine (s : State) : State :=
  let ly := (s.ppu.ly.toNat + 1) % 154
  let t := s.setPpu { s.ppu with ly := BitVec.ofNat 8 ly }
  if ly = 144 then { setRequest 0 t with frames := t.frames + 1 } else t

/-- `k` line advances. -/
def advanceLines : Nat → State → State
  | 0, s => s
  | k + 1, s => advanceLines k (advanceLine s)

/-- A step renders when it leaves the line visible and past OAM search, and it was not so before on this line (R255). -/
def renderDue (old : Nat) (lines : Nat) (t : State) : Bool :=
  decide (t.ppu.ly.toNat < 144) && decide (80 ≤ t.ppu.acc) && (decide (0 < lines) || decide (old < 80))

/-- `PpuStep(n)` (R252). The loop runs once for each whole 456 cycles accumulated, so its count and what it leaves in the
accumulator are the quotient and the remainder. -/
def ppuStep (n : Nat) (s : State) : State :=
  let total := s.ppu.acc + n
  let t := advanceLines (total / 456) (s.setPpu { s.ppu with acc := total % 456 })
  if renderDue s.ppu.acc (total / 456) t then renderLine t.ppu.ly.toNat t else t

end Sys2Proof.Machine
end

