-- ==== Sys2Proof/Machine/Cpu.lean ====
section
/-! DEFINITION. The processor step (R220) and the system step (R270) over it, for Machine/Step.lean to call. -/

namespace Sys2Proof.Machine

/-- The instruction part of a step: the halted processor costs 4 cycles and fetches nothing, else one instruction is
fetched and executed (R211, R220). -/
def instructionPhase (s : State) : Out :=
  if s.halted then .next (s.setCycles haltedCost)
  else orFault (fetchInstr s) fun r => exec r.1 r.2

/-- `CpuStep()`: the instruction part, then the interrupt phase (R220, R242). -/
def cpuStep (s : State) : Out := thenRun (instructionPhase s) interruptPhase

/-- `SystemStep()`: only when no fault is recorded; the picture unit advances by the cycles the processor step reports
(R270). -/
def systemStep (s : State) : Out :=
  match s.fault with
  | some r => .fault r
  | none => thenRun (cpuStep s) fun t => .next (ppuStep t.cycles t)

end Sys2Proof.Machine
end

