-- ==== Sys2Proof/Machine/Step.lean ====
section
/-! DEFINITION. The step of the machine, the system step of R270, and the placing of an instruction where it fetches. -/

namespace Sys2Proof.Machine

/-- One system step: one processor step, then one picture unit step (R220, R270). -/
def step (s : State) : Host.Outcome State Fault Refusal := systemStep s

/-- The state with the instruction of a table word placed where the next step fetches (log entry 4). -/
def State.withFetchWord (s : State) (nbits w : Nat) : State := withProgramBytes s (tableWordBytes nbits w)

end Sys2Proof.Machine
end

