-- ==== Sys2Proof/Machine/Driver.lean ====
section
/-! DEFINITION. The driver loop around the step, as far as it is a contract of the CORE: the fault record (R46, R222), the
frame-buffer port (R262), the debug step gate (R272) and cancellation (R273). -/

namespace Sys2Proof.Machine

/-- FREE VALUE (log entry 8): what a fatal error leaves in the state beside the fault record and the frame buffer (R222). -/
opaque stateAfterFault : State → Fault → State

/-- The state a fatal error leaves: the record is set, the frame buffer keeps its contents, nothing else is defined (R222).
The step that faulted rendered nothing, so the contents are those before it. -/
def faulted (s : State) (r : Fault) : State := { stateAfterFault s r with fault := some r, fb := s.fb }

/-- One iteration of the driver loop, total: a machine with a recorded fault takes no further step (R46, R222, R270). A
refusal, which no instruction of this model raises, leaves the machine where it is. -/
def driverStep (s : State) : State :=
  match s.fault with
  | some _ => s
  | none =>
    match step s with
    | .next t => t
    | .fault r => faulted s r
    | .refused _ => s

/-- The display consumer's copy of the whole grid, taken between line writes (R82, R262). -/
def copyFrame (s : State) : FrameBuffer := s.fb

/-- The driver: the machine, whether debug mode is on, the acknowledgements given, and whether it was shut down. -/
structure Driver where
  machine : State
  debug : Bool
  acks : Nat
  stopped : Bool
deriving DecidableEq, Repr, Inhabited

/-- What the host offers before an iteration: a resume message, a stop request (R272-R274). -/
structure HostInput where
  resume : Bool
  shutdown : Bool
deriving DecidableEq, Repr, Inhabited

/-- One turn of the loop: a stop request is honoured between steps with no other effect (R273); in debug mode the loop
waits for a resume message and acknowledges it (R272); then one iteration. DEDUCED (log entry 15): no rule says what the
host's messages do once a fatal error has stopped the loop (R222); here they do nothing, so no resume is acknowledged
when no step follows. DESIGN CHOICE (log entry 15): a stop request goes before a resume message offered with it. -/
def driverTurn (d : Driver) (input : HostInput) : Driver :=
  if d.stopped || d.machine.fault.isSome then d
  else if input.shutdown then { d with stopped := true }
  else if d.debug then
    if input.resume then { d with machine := driverStep d.machine, acks := d.acks + 1 } else d
  else { d with machine := driverStep d.machine }

end Sys2Proof.Machine
end

