-- ==== Sys2Proof/Safety.lean ====
section
/-! DEFINITION. The terms the statements use: what counts as a well-kept state, what an encoding is, what an instruction
leaves alone, what a store does. A safe run is one of states that satisfy `State.Inv`, every step of which answers a next
state. -/

namespace Sys2Proof.Machine

/-- The invariant of every constructed machine: canonical memory, F[3:0] = 0 (R25), stored STAT bits 1:0 = 0 (R35), LY in
0..153 (R37), the accumulator in 0..455 (R41). -/
def State.Inv (s : State) : Prop :=
  Memory.wf s.mem = true ∧ s.regs.f &&& 0x0F#8 = 0#8 ∧ s.ppu.stat &&& 0x03#8 = 0#8 ∧ s.ppu.ly.toNat < 154 ∧ s.ppu.acc < 456

/-- The processor runs: no fault is recorded and it is not halted. -/
def Running (s : State) : Prop := s.fault = none ∧ s.halted = false

/-- A legal instruction's opcode byte, its length in bytes, its default cost taken and not taken. -/
def Encodes (i : Instr) (op len taken notTaken : Nat) : Prop :=
  i.wf = true ∧ i.opcode = BitVec.ofNat 8 op ∧ i.length = len ∧
  defaultCost i.opcode true = taken ∧ defaultCost i.opcode false = notTaken

/-- The read of an instruction's immediate, whose bytes start after the opcode byte at PC (R92, R106). -/
def immediateRead (s : State) (i : Instr) : Except Fault Unit :=
  match i.length with
  | 2 => (readByte .fetch s (s.pc + 1#16)).map fun _ => ()
  | 3 => (readWord .fetch s (s.pc + 1#16)).map fun _ => ()
  | _ => .ok ()

/-- The fetch fault of an immediate: the step ends with the error of that read (R92, R222). -/
def ImmediateFaults (i : Instr) : Prop :=
  ∀ (s : State) (e : Fault), Running s → populated s.cfg i.opcode = true → readByte .fetch s s.pc = .ok i.opcode →
    immediateRead s i = .error e → step s = .fault e

/-- An instruction lies at PC, every byte of it readable, a 16-bit immediate in one device (R91, R92). -/
def InstructionAt (s : State) (i : Instr) : Prop :=
  ∃ op : Byte, readByte .fetch s s.pc = .ok op ∧
    (decode [op] = .ok (i, []) ∨
     (∃ n, readByte .fetch s (s.pc + 1#16) = .ok n ∧ decode [op, n] = .ok (i, [])) ∨
     (∃ nn, readWord .fetch s (s.pc + 1#16) = .ok nn ∧ decode [op, lowByte nn, highByte nn] = .ok (i, [])))

/-- The encoding of `alu[y] s` in its three operand forms, and the fetch fault of the immediate one (R150). -/
def AluEncodes (o : AluOp) : AluOperand → Prop
  | .reg r => Encodes (Instr.alu o (.reg r)) (0x80 + 8 * o.code + r.code) 1 4 4
  | .atHL => Encodes (Instr.alu o .atHL) (0x86 + 8 * o.code) 1 8 8
  | .imm n => Encodes (Instr.alu o (.imm n)) (0xC6 + 8 * o.code) 2 8 8 ∧ ImmediateFaults (Instr.alu o (.imm n))

/-! ### What stays -/

/-- The registers a write of a pair of `rp` changes; none for SP (R23, R95). -/
def pairHalves : Pair → List Reg8
  | .bc => [.b, .c]
  | .de => [.d, .e]
  | .hl => [.h, .l]
  | .sp => []

/-- The operand registers a write of a pair of `rp2` changes; F is no operand register (R24, R96). -/
def stackPairHalves : StackPair → List Reg8
  | .bc => [.b, .c]
  | .de => [.d, .e]
  | .hl => [.h, .l]
  | .af => [.a]

/-- Every operand register but those listed is unchanged. -/
def RegsKept (s t : State) (changed : List Reg8) : Prop := ∀ r, r ∉ changed → t.reg r = s.reg r

/-- F is unchanged. -/
def FlagsKept (s t : State) : Prop := t.regs.f = s.regs.f

/-- F holds exactly these flags: Z = bit 7, N = bit 6, H = bit 5, C = bit 4, bits 3:0 zero (R25, the places by the
spec's decision D3). -/
def FlagsAre (t : State) (z n h c : Bool) : Prop :=
  t.regs.f.toNat = 128 * z.toNat + 64 * n.toNat + 32 * h.toNat + 16 * c.toNat

/-- Every byte the bus reads is unchanged, every fault of a read too. -/
def MemoryKept (s t : State) : Prop := ∀ k a, readByte k t a = readByte k s a

/-- IME and the run state are unchanged. -/
def ControlKept (s t : State) : Prop := t.ime = s.ime ∧ t.halted = s.halted

/-- The frame buffer, the frame count, the fault record, the parameters and what only the picture unit writes are
unchanged. -/
def OutputsKept (s t : State) : Prop :=
  t.fb = s.fb ∧ t.frames = s.frames ∧ t.fault = s.fault ∧ t.cfg = s.cfg ∧ t.ppu.ly = s.ppu.ly ∧ t.ppu.acc = s.ppu.acc

/-- IE, IF and the picture unit's registers are unchanged. -/
def DevicesKept (s t : State) : Prop := t.ie = s.ie ∧ t.iflag = s.iflag ∧ t.ppu = s.ppu

/-- Everything but the processor's registers and the cycle count is unchanged: the frame of a form that stores nothing. -/
def MachineKept (s t : State) : Prop :=
  ControlKept s t ∧ DevicesKept s t ∧ OutputsKept s t ∧ MemoryKept s t

/-- SP and PC are unchanged. PC stands past the instruction already when a meaning starts (R91, R92). -/
def PointersKept (s t : State) : Prop := t.sp = s.sp ∧ t.pc = s.pc

/-- The instruction reports the cost of its opcode. -/
def Charged (s t : State) (i : Instr) (taken : Bool) : Prop := t.cycles = cycleCost s.cfg i.opcode taken

/-! ### Stores -/

/-- An address a byte can be written to: a device other than ROM owns it (R52, R68). -/
def Writable (cfg : Config) (a : Word) : Prop := ∃ d, owner cfg a = some d ∧ d ≠ .rom

/-- What a read of an address answers after a byte was written there: STAT keeps bits 7:2 and computes bits 1:0, LY ignores
the write, every other byte is stored (R65). -/
def valueAfterStore (s : State) (a : Word) (v : Byte) : Byte :=
  if a = 0xFF41#16 then (v &&& 0xFC#8) ||| ppuMode s.ppu.ly s.ppu.acc else if a = 0xFF44#16 then s.ppu.ly else v

/-- A byte is stored at an address and every other byte the bus reads is unchanged. -/
def StoredByte (s t : State) (a : Word) (v : Byte) : Prop :=
  (∀ k, readByte k t a = .ok (valueAfterStore s a v)) ∧ ∀ k b, b ≠ a → readByte k t b = readByte k s b

/-- An address a word can be written to: one device other than ROM owns both bytes (R54, R56). -/
def WordWritable (cfg : Config) (a : Word) : Prop :=
  ∃ d, owner cfg a = some d ∧ d ≠ .rom ∧ owner cfg (a + 1#16) = some d

/-- A word is stored at an address, the low byte first in memory, and every other byte the bus reads is unchanged. -/
def StoredWord (s t : State) (a v : Word) : Prop :=
  (∀ k, readByte k t a = .ok (valueAfterStore s a (lowByte v))) ∧
  (∀ k, readByte k t (a + 1#16) = .ok (valueAfterStore s (a + 1#16) (highByte v))) ∧
  ∀ k b, b ≠ a → b ≠ a + 1#16 → readByte k t b = readByte k s b

/-- The frame of a form that stores: IME, the run state and the outputs stay; memory and the mapped registers are said
byte by byte by `StoredByte` or `StoredWord`. -/
def StoreKept (s t : State) : Prop := ControlKept s t ∧ OutputsKept s t

/-- The faults of a byte store: an unmapped address, or ROM (R52, R68). -/
def StoreFaults (s : State) (a : Word) (o : Out) : Prop :=
  (owner s.cfg a = none → o = .fault (.busUnmapped a .write)) ∧ (owner s.cfg a = some .rom → o = .fault (.romWrite a))

/-- The faults of a word store: of its first byte as of a byte store, then a second byte outside the first one's device
(R54, R56). -/
def WordStoreFaults (s : State) (a : Word) (o : Out) : Prop :=
  StoreFaults s a o ∧
  ∀ d, owner s.cfg a = some d → d ≠ .rom → owner s.cfg (a + 1#16) ≠ some d → o = .fault (.deviceRange (a + 1#16))

/-! ### Interrupts and lines -/

/-- The sources the interrupt phase serves, ascending: pending and enabled, bits 0 to 4 only (R231, R234, R235). -/
def servedSources (s : State) : List Nat := [0, 1, 2, 3, 4].filter fun i => s.ie.getLsbD i && s.iflag.getLsbD i

/-- The line and the accumulator as one position in the frame, in cycles (R8, R37, R41). -/
def framePosition (s : State) : Nat := 456 * s.ppu.ly.toNat + s.ppu.acc

/-! ### What an instruction may write -/

/-- The instructions whose own effect sets or clears IME (R29, R231). -/
def writesIme (i : Instr) : Bool := i == .ei || i == .di || i == .reti

/-- The instructions that enter the halted state (R246). -/
def entersHalt (i : Instr) : Bool :=
  match i with
  | .halt | .stop _ => true
  | _ => false

/-- The flags an opcode writes, by the fields of R93: the `flags` column of spec/opcode_table.json with `-` read as not
written (R26). -/
def flagsWritten (op : Byte) : Flags :=
  let x := opcodeX op
  let y := opcodeY op
  let z := opcodeZ op
  if x = 2 ∨ (x = 3 ∧ z = 6) ∨ op = 0xE8 ∨ op = 0xF8 ∨ op = 0xF1 ∨ (x = 0 ∧ z = 7 ∧ y < 4) then ⟨true, true, true, true⟩
  else if x = 0 ∧ (z = 4 ∨ z = 5) then ⟨true, true, true, false⟩
  else if x = 0 ∧ ((z = 1 ∧ opcodeQ op = 1) ∨ (z = 7 ∧ 6 ≤ y)) then ⟨false, true, true, true⟩
  else if op = 0x27 then ⟨true, false, true, true⟩
  else if op = 0x2F then ⟨false, true, true, false⟩
  else ⟨false, false, false, false⟩

end Sys2Proof.Machine
end

