-- ==== Sys2Proof/Certificates/Slice0/Obligations.lean ====
section
/-! DEFINITION. The statements for the provers. A statement about a meaning starts from a state whose PC is already past the
instruction (R91, R92); `Obligations.StepRunsTheDecodedInstruction` carries it to a run. `Charged` says that the
instruction reports the cost of its opcode on this machine, and `Encodes` what that cost is by default (R7, R111). -/

open Sys2Proof Sys2Proof.Machine

/-! ### 8-bit loads -/

/-- R120: `r[y] <- r[z]`, for all 49 register pairs; nothing else changes. -/
def Obligations.LoadRegisterFromRegister : Prop :=
  ∀ (dst src : Reg8) (s : State),
    Encodes (Instr.ldRegReg dst src) (0x40 + 8 * dst.code + src.code) 1 4 4 ∧
    ∃ t, exec (Instr.ldRegReg dst src) s = .next t ∧ t.reg dst = s.reg src ∧ RegsKept s t [dst] ∧ FlagsKept s t ∧
      PointersKept s t ∧ MachineKept s t ∧ Charged s t (Instr.ldRegReg dst src) true

/-- R121: `r[y]` takes the byte at HL as it was before the write; a read fault ends the step. -/
def Obligations.LoadRegisterFromHL : Prop :=
  ∀ (dst : Reg8) (s : State),
    Encodes (Instr.ldRegAtHL dst) (0x46 + 8 * dst.code) 1 8 8 ∧
    (∀ v, readByte .read s s.hl = .ok v →
      ∃ t, exec (Instr.ldRegAtHL dst) s = .next t ∧ t.reg dst = v ∧ RegsKept s t [dst] ∧ FlagsKept s t ∧
        PointersKept s t ∧ MachineKept s t ∧ Charged s t (Instr.ldRegAtHL dst) true) ∧
    (∀ e, readByte .read s s.hl = .error e → exec (Instr.ldRegAtHL dst) s = .fault e)

/-- R122, R124: the byte at HL takes `r[z]` or `n`; every other byte and every register stays; write faults at HL. -/
def Obligations.StoreAtHL : Prop :=
  ∀ (src : Reg8) (n : Byte),
    Encodes (Instr.ldAtHLReg src) (0x70 + src.code) 1 8 8 ∧
    (Encodes (.ldAtHLn n) 0x36 2 12 12 ∧ ImmediateFaults (.ldAtHLn n)) ∧
    ∀ (s : State) (i : Instr) (v : Byte), (i, v) ∈ [(Instr.ldAtHLReg src, s.reg src), (.ldAtHLn n, n)] →
      (Writable s.cfg s.hl →
        ∃ t, exec i s = .next t ∧ StoredByte s t s.hl v ∧ RegsKept s t [] ∧ FlagsKept s t ∧ PointersKept s t ∧
          StoreKept s t ∧ Charged s t i true) ∧
      StoreFaults s s.hl (exec i s)

/-- R123: `r[y] <- n`; the fetch of `n` can fault. -/
def Obligations.LoadRegisterImmediate : Prop :=
  ∀ (dst : Reg8) (n : Byte) (s : State),
    Encodes (Instr.ldRegImm dst n) (0x06 + 8 * dst.code) 2 8 8 ∧ ImmediateFaults (Instr.ldRegImm dst n) ∧
    ∃ t, exec (Instr.ldRegImm dst n) s = .next t ∧ t.reg dst = n ∧ RegsKept s t [dst] ∧ FlagsKept s t ∧
      PointersKept s t ∧ MachineKept s t ∧ Charged s t (Instr.ldRegImm dst n) true

/-- R125, R126, R129, R131, R133: the six loads of A from memory but the two that step HL, each with its address. -/
def Obligations.LoadAFromMemory : Prop :=
  ∀ (n : Byte) (nn : Word),
    Encodes .ldAAtBC 0x0A 1 8 8 ∧ Encodes .ldAAtDE 0x1A 1 8 8 ∧ Encodes .ldAAtC 0xF2 1 8 8 ∧
    (Encodes (.ldhAAtn n) 0xF0 2 12 12 ∧ ImmediateFaults (.ldhAAtn n)) ∧
    (Encodes (.ldAAtnn nn) 0xFA 3 16 16 ∧ ImmediateFaults (.ldAAtnn nn)) ∧
    ∀ (s : State) (i : Instr) (a : Word),
      (i, a) ∈ [(.ldAAtBC, joinBytes (s.reg .b) (s.reg .c)), (.ldAAtDE, joinBytes (s.reg .d) (s.reg .e)),
        (.ldAAtC, 0xFF00#16 + zext16 (s.reg .c)), (.ldhAAtn n, 0xFF00#16 + zext16 n), (.ldAAtnn nn, nn)] →
      (∀ v, readByte .read s a = .ok v →
        ∃ t, exec i s = .next t ∧ t.reg .a = v ∧ RegsKept s t [.a] ∧ FlagsKept s t ∧ PointersKept s t ∧
          MachineKept s t ∧ Charged s t i true) ∧
      (∀ e, readByte .read s a = .error e → exec i s = .fault e)

/-- R127, R128, R130, R132, R134: the stores of A but the two that step HL, each with its address. -/
def Obligations.StoreAToMemory : Prop :=
  ∀ (n : Byte) (nn : Word),
    Encodes .ldAtBCA 0x02 1 8 8 ∧ Encodes .ldAtDEA 0x12 1 8 8 ∧ Encodes .ldAtCA 0xE2 1 8 8 ∧
    (Encodes (.ldhAtnA n) 0xE0 2 12 12 ∧ ImmediateFaults (.ldhAtnA n)) ∧
    (Encodes (.ldAtnnA nn) 0xEA 3 16 16 ∧ ImmediateFaults (.ldAtnnA nn)) ∧
    ∀ (s : State) (i : Instr) (a : Word),
      (i, a) ∈ [(.ldAtBCA, joinBytes (s.reg .b) (s.reg .c)), (.ldAtDEA, joinBytes (s.reg .d) (s.reg .e)),
        (.ldAtCA, 0xFF00#16 + zext16 (s.reg .c)), (.ldhAtnA n, 0xFF00#16 + zext16 n), (.ldAtnnA nn, nn)] →
      (Writable s.cfg a →
        ∃ t, exec i s = .next t ∧ StoredByte s t a (s.reg .a) ∧ RegsKept s t [] ∧ FlagsKept s t ∧ PointersKept s t ∧
          StoreKept s t ∧ Charged s t i true) ∧
      StoreFaults s a (exec i s)

/-- R135, R136: A takes the byte at the old HL, and HL steps by one modulo 2^16. -/
def Obligations.LoadAFromHLAndStep : Prop :=
  Encodes .ldAAtHLInc 0x2A 1 8 8 ∧ Encodes .ldAAtHLDec 0x3A 1 8 8 ∧
  ∀ (s : State) (i : Instr) (next : Word), (i, next) ∈ [(.ldAAtHLInc, s.hl + 1#16), (.ldAAtHLDec, s.hl - 1#16)] →
    (∀ v, readByte .read s s.hl = .ok v →
      ∃ t, exec i s = .next t ∧ t.reg .a = v ∧ t.hl = next ∧ RegsKept s t [.a, .h, .l] ∧ FlagsKept s t ∧
        PointersKept s t ∧ MachineKept s t ∧ Charged s t i true) ∧
    (∀ e, readByte .read s s.hl = .error e → exec i s = .fault e)

/-- R137, R138: the byte at the old HL takes A, and HL steps by one modulo 2^16. -/
def Obligations.StoreAAtHLAndStep : Prop :=
  Encodes .ldAtHLIncA 0x22 1 8 8 ∧ Encodes .ldAtHLDecA 0x32 1 8 8 ∧
  ∀ (s : State) (i : Instr) (next : Word), (i, next) ∈ [(.ldAtHLIncA, s.hl + 1#16), (.ldAtHLDecA, s.hl - 1#16)] →
    (Writable s.cfg s.hl →
      ∃ t, exec i s = .next t ∧ StoredByte s t s.hl (s.reg .a) ∧ t.hl = next ∧ RegsKept s t [.h, .l] ∧
        FlagsKept s t ∧ PointersKept s t ∧ StoreKept s t ∧ Charged s t i true) ∧
    StoreFaults s s.hl (exec i s)

/-! ### 16-bit loads and the stack -/

/-- R140, R141: a pair, or SP, takes `nn`; SP takes HL. The first clause says what the pairs are (R11, R23). -/
def Obligations.LoadPair : Prop :=
  (∀ s : State, s.hl = s.pair .hl ∧ s.sp = s.pair .sp ∧
    ∀ p hi lo, (p, hi, lo) ∈ [(Pair.bc, Reg8.b, Reg8.c), (.de, .d, .e), (.hl, .h, .l)] →
      (s.pair p).toNat = 256 * (s.reg hi).toNat + (s.reg lo).toNat) ∧
  (∀ (p : Pair) (nn : Word) (s : State),
    Encodes (Instr.ldPairImm p nn) (0x01 + 16 * p.code) 3 12 12 ∧ ImmediateFaults (Instr.ldPairImm p nn) ∧
    ∃ t, exec (Instr.ldPairImm p nn) s = .next t ∧ t.pair p = nn ∧ RegsKept s t (pairHalves p) ∧ FlagsKept s t ∧
      (p ≠ .sp → t.sp = s.sp) ∧ t.pc = s.pc ∧ MachineKept s t ∧ Charged s t (Instr.ldPairImm p nn) true) ∧
  ∀ s : State,
    Encodes .ldSPHL 0xF9 1 8 8 ∧
    ∃ t, exec .ldSPHL s = .next t ∧ t.sp = joinBytes (s.reg .h) (s.reg .l) ∧ RegsKept s t [] ∧ FlagsKept s t ∧
      t.pc = s.pc ∧ MachineKept s t ∧ Charged s t .ldSPHL true

/-- R142: the word at `nn` takes SP, low byte first; the faults of its two bytes. -/
def Obligations.StoreSP : Prop :=
  ∀ (nn : Word) (s : State),
    Encodes (.ldAtnnSP nn) 0x08 3 20 20 ∧ ImmediateFaults (.ldAtnnSP nn) ∧
    (WordWritable s.cfg nn →
      ∃ t, exec (.ldAtnnSP nn) s = .next t ∧ StoredWord s t nn s.sp ∧ RegsKept s t [] ∧ FlagsKept s t ∧
        PointersKept s t ∧ StoreKept s t ∧ Charged s t (.ldAtnnSP nn) true) ∧
    WordStoreFaults s nn (exec (.ldAtnnSP nn) s)

/-- R143: SP drops by two and the word there takes the pair. The first clause says what the pairs are, `A:F` for AF. -/
def Obligations.PushPair : Prop :=
  (∀ s : State, s.stackPair .bc = s.pair .bc ∧ s.stackPair .de = s.pair .de ∧ s.stackPair .hl = s.pair .hl ∧
    (s.stackPair .af).toNat = 256 * (s.reg .a).toNat + s.regs.f.toNat) ∧
  ∀ (p : StackPair) (s : State),
    Encodes (Instr.push p) (0xC5 + 16 * p.code) 1 16 16 ∧
    (WordWritable s.cfg (s.sp - 2#16) →
      ∃ t, exec (Instr.push p) s = .next t ∧ t.sp = s.sp - 2#16 ∧ StoredWord s t (s.sp - 2#16) (s.stackPair p) ∧
        RegsKept s t [] ∧ FlagsKept s t ∧ t.pc = s.pc ∧ StoreKept s t ∧ Charged s t (Instr.push p) true) ∧
    WordStoreFaults s (s.sp - 2#16) (exec (Instr.push p) s)

/-- R144, R145: the pair takes the word at SP, with F[3:0] forced to zero for AF, and SP rises by two. -/
def Obligations.PopPair : Prop :=
  ∀ (p : StackPair) (s : State),
    Encodes (Instr.pop p) (0xC1 + 16 * p.code) 1 12 12 ∧
    (∀ v, readWord .read s s.sp = .ok v →
      ∃ t, exec (Instr.pop p) s = .next t ∧ t.sp = s.sp + 2#16 ∧
        t.stackPair p = (if p = .af then v &&& 0xFFF0#16 else v) ∧ RegsKept s t (stackPairHalves p) ∧
        (p ≠ .af → FlagsKept s t) ∧ t.pc = s.pc ∧ MachineKept s t ∧ Charged s t (Instr.pop p) true) ∧
    (∀ e, readWord .read s s.sp = .error e → exec (Instr.pop p) s = .fault e)

/-- R146, R183, R184: SP plus the sign-extended `e` into HL or SP; H and C from the unsigned addition of the low byte
of SP and the raw byte `e`, Z and N clear. -/
def Obligations.AddDisplacementToSP : Prop :=
  ∀ (e : Byte) (s : State),
    let h := decide (s.sp.toNat % 16 + e.toNat % 16 > 15)
    let c := decide (s.sp.toNat % 256 + e.toNat > 255)
    Encodes (.ldHLSPe e) 0xF8 2 12 12 ∧ ImmediateFaults (.ldHLSPe e) ∧ Encodes (.addSPe e) 0xE8 2 16 16 ∧
    ImmediateFaults (.addSPe e) ∧
    (∃ t, exec (.ldHLSPe e) s = .next t ∧ t.hl = s.sp + BitVec.ofInt 16 e.toInt ∧ FlagsAre t false false h c ∧
      RegsKept s t [.h, .l] ∧ PointersKept s t ∧ MachineKept s t ∧ Charged s t (.ldHLSPe e) true) ∧
    (∃ t, exec (.addSPe e) s = .next t ∧ t.sp = s.sp + BitVec.ofInt 16 e.toInt ∧ FlagsAre t false false h c ∧
      RegsKept s t [] ∧ t.pc = s.pc ∧ MachineKept s t ∧ Charged s t (.addSPe e) true)

/-! ### 8-bit arithmetic and logic -/

/-- R153, R154 with R150, R151: ADD and ADC, for the three operand forms, and what the operand is in each. -/
def Obligations.AddAndAdc : Prop :=
  (∀ (s : State) (r : Reg8) (n : Byte),
    operandValue s (.reg r) = .ok (s.reg r) ∧ operandValue s (.imm n) = .ok n ∧
    operandValue s .atHL = readByte .read s (joinBytes (s.reg .h) (s.reg .l))) ∧
  ∀ (o : AluOp) (x : AluOperand) (s : State), o = .add ∨ o = .adc →
    AluEncodes o x ∧
    (∀ v, operandValue s x = .ok v →
      let a := (s.reg .a).toNat
      let cin := if o = .adc then s.flags.c.toNat else 0
      let sum := a + v.toNat + cin
      ∃ t, exec (Instr.alu o x) s = .next t ∧ (t.reg .a).toNat = sum % 256 ∧
        FlagsAre t (decide (sum % 256 = 0)) false (decide (a % 16 + v.toNat % 16 + cin > 15)) (decide (sum > 255)) ∧
        RegsKept s t [.a] ∧ PointersKept s t ∧ MachineKept s t ∧ Charged s t (Instr.alu o x) true) ∧
    (∀ e, operandValue s x = .error e → exec (Instr.alu o x) s = .fault e)

/-- R155, R156, R160 with R150, R152: SUB, SBC and CP, for the three operand forms; CP writes no A. -/
def Obligations.SubSbcAndCp : Prop :=
  ∀ (o : AluOp) (x : AluOperand) (s : State), o = .sub ∨ o = .sbc ∨ o = .cp →
    AluEncodes o x ∧
    (∀ v, operandValue s x = .ok v →
      let a := (s.reg .a).toNat
      let cin := if o = .sbc then s.flags.c.toNat else 0
      let result := (a + 512 - v.toNat - cin) % 256
      ∃ t, exec (Instr.alu o x) s = .next t ∧ (if o = .cp then t.reg .a = s.reg .a else (t.reg .a).toNat = result) ∧
        FlagsAre t (decide (result = 0)) true (decide (a % 16 < v.toNat % 16 + cin)) (decide (a < v.toNat + cin)) ∧
        RegsKept s t [.a] ∧ PointersKept s t ∧ MachineKept s t ∧ Charged s t (Instr.alu o x) true) ∧
    (∀ e, operandValue s x = .error e → exec (Instr.alu o x) s = .fault e)

/-- R157, R158, R159 with R150: AND, XOR and OR, for the three operand forms; only AND sets H. -/
def Obligations.AndXorAndOr : Prop :=
  ∀ (o : AluOp) (x : AluOperand) (s : State) (f : Byte → Byte → Byte),
    (o, f) = (AluOp.and, fun a b => a &&& b) ∨ (o, f) = (AluOp.xor, fun a b => a ^^^ b) ∨
      (o, f) = (AluOp.or, fun a b => a ||| b) →
    AluEncodes o x ∧
    (∀ v, operandValue s x = .ok v →
      ∃ t, exec (Instr.alu o x) s = .next t ∧ t.reg .a = f (s.reg .a) v ∧
        FlagsAre t (decide (f (s.reg .a) v = 0#8)) false (decide (o = .and)) false ∧
        RegsKept s t [.a] ∧ PointersKept s t ∧ MachineKept s t ∧ Charged s t (Instr.alu o x) true) ∧
    (∀ e, operandValue s x = .error e → exec (Instr.alu o x) s = .fault e)

/-- R161, R163: INC and DEC of a register; C is not written. -/
def Obligations.IncAndDecRegister : Prop :=
  ∀ (r : Reg8) (s : State),
    let v := (s.reg r).toNat
    Encodes (Instr.incReg r) (0x04 + 8 * r.code) 1 4 4 ∧ Encodes (Instr.decReg r) (0x05 + 8 * r.code) 1 4 4 ∧
    (∃ t, exec (Instr.incReg r) s = .next t ∧ (t.reg r).toNat = (v + 1) % 256 ∧
      FlagsAre t (decide ((v + 1) % 256 = 0)) false (decide (v % 16 + 1 > 15)) s.flags.c ∧
      RegsKept s t [r] ∧ PointersKept s t ∧ MachineKept s t ∧ Charged s t (Instr.incReg r) true) ∧
    (∃ t, exec (Instr.decReg r) s = .next t ∧ (t.reg r).toNat = (v + 255) % 256 ∧
      FlagsAre t (decide ((v + 255) % 256 = 0)) true (decide (v % 16 < 1)) s.flags.c ∧
      RegsKept s t [r] ∧ PointersKept s t ∧ MachineKept s t ∧ Charged s t (Instr.decReg r) true)

/-- R162, R164: INC and DEC of the byte at HL, one read and one write; the write fault comes after the read. -/
def Obligations.IncAndDecAtHL : Prop :=
  Encodes .incAtHL 0x34 1 12 12 ∧ Encodes .decAtHL 0x35 1 12 12 ∧
  ∀ (s : State) (i : Instr),
    (i = .incAtHL ∨ i = .decAtHL) →
    (∀ v, readByte .read s s.hl = .ok v →
      let result := if i = .incAtHL then v + 1#8 else v - 1#8
      let half := if i = .incAtHL then decide (v.toNat % 16 + 1 > 15) else decide (v.toNat % 16 < 1)
      (Writable s.cfg s.hl →
        ∃ t, exec i s = .next t ∧ StoredByte s t s.hl result ∧
          FlagsAre t (decide (result = 0#8)) (decide (i = .decAtHL)) half s.flags.c ∧ RegsKept s t [] ∧
          PointersKept s t ∧ StoreKept s t ∧ Charged s t i true) ∧
      StoreFaults s s.hl (exec i s)) ∧
    (∀ e, readByte .read s s.hl = .error e → exec i s = .fault e)

/-- R165 to R168: the four rotates of A; Z is forced 0, C is the bit rotated out. -/
def Obligations.RotatesOfA : Prop :=
  Encodes .rlca 0x07 1 4 4 ∧ Encodes .rrca 0x0F 1 4 4 ∧ Encodes .rla 0x17 1 4 4 ∧ Encodes .rra 0x1F 1 4 4 ∧
  ∀ (s : State) (i : Instr) (value : Nat) (out : Bool),
    let a := (s.reg .a).toNat
    let cin := s.flags.c.toNat
    (i, value, out) ∈ [(.rlca, 2 * a % 256 + a / 128, decide (128 ≤ a)), (.rrca, a / 2 + 128 * (a % 2), decide (a % 2 = 1)),
      (.rla, 2 * a % 256 + cin, decide (128 ≤ a)), (.rra, a / 2 + 128 * cin, decide (a % 2 = 1))] →
    ∃ t, exec i s = .next t ∧ (t.reg .a).toNat = value ∧ FlagsAre t false false false out ∧ RegsKept s t [.a] ∧
      PointersKept s t ∧ MachineKept s t ∧ Charged s t i true

/-- R169: DAA. After an add the two adjustments add 0x60 and 0x06, after a subtract they subtract them; N is kept. -/
def Obligations.DecimalAdjust : Prop :=
  Encodes .daa 0x27 1 4 4 ∧
  ∀ s : State,
    let a := (s.reg .a).toNat
    let f := s.flags
    let high := f.c || (!f.n && decide (a > 0x99))
    let low := f.h || (!f.n && decide (a % 16 > 9))
    let adjust := (if high then 0x60 else 0) + (if low then 0x06 else 0)
    let result := if f.n then (a + 512 - adjust) % 256 else (a + adjust) % 256
    ∃ t, exec .daa s = .next t ∧ (t.reg .a).toNat = result ∧ FlagsAre t (decide (result = 0)) f.n false high ∧
      RegsKept s t [.a] ∧ PointersKept s t ∧ MachineKept s t ∧ Charged s t .daa true

/-- R170, R171, R172: CPL, SCF and CCF; Z is kept. -/
def Obligations.ComplementAndCarryFlags : Prop :=
  Encodes .cpl 0x2F 1 4 4 ∧ Encodes .scf 0x37 1 4 4 ∧ Encodes .ccf 0x3F 1 4 4 ∧
  ∀ s : State,
    (∃ t, exec .cpl s = .next t ∧ (t.reg .a).toNat = 255 - (s.reg .a).toNat ∧
      FlagsAre t s.flags.z true true s.flags.c ∧ RegsKept s t [.a] ∧ PointersKept s t ∧ MachineKept s t ∧
      Charged s t .cpl true) ∧
    (∃ t, exec .scf s = .next t ∧ FlagsAre t s.flags.z false false true ∧ RegsKept s t [] ∧ PointersKept s t ∧
      MachineKept s t ∧ Charged s t .scf true) ∧
    (∃ t, exec .ccf s = .next t ∧ FlagsAre t s.flags.z false false (!s.flags.c) ∧ RegsKept s t [] ∧ PointersKept s t ∧
      MachineKept s t ∧ Charged s t .ccf true)

/-! ### 16-bit arithmetic -/

/-- R180, R181: INC and DEC of a pair or SP modulo 2^16; no flag is written. -/
def Obligations.IncAndDecPair : Prop :=
  ∀ (p : Pair) (s : State),
    Encodes (Instr.incPair p) (0x03 + 16 * p.code) 1 8 8 ∧ Encodes (Instr.decPair p) (0x0B + 16 * p.code) 1 8 8 ∧
    (∃ t, exec (Instr.incPair p) s = .next t ∧ (t.pair p).toNat = ((s.pair p).toNat + 1) % 65536 ∧
      RegsKept s t (pairHalves p) ∧ FlagsKept s t ∧ (p ≠ .sp → t.sp = s.sp) ∧ t.pc = s.pc ∧ MachineKept s t ∧
      Charged s t (Instr.incPair p) true) ∧
    (∃ t, exec (Instr.decPair p) s = .next t ∧ (t.pair p).toNat = ((s.pair p).toNat + 65535) % 65536 ∧
      RegsKept s t (pairHalves p) ∧ FlagsKept s t ∧ (p ≠ .sp → t.sp = s.sp) ∧ t.pc = s.pc ∧ MachineKept s t ∧
      Charged s t (Instr.decPair p) true)

/-- R182, R184: ADD HL; Z is kept, C is the carry out of bit 15, H is the parameter `HC16`: by default the carry out
of bit 11, else the free value of log entry 7, the same for the same operands. -/
def Obligations.AddPairToHL : Prop :=
  ∀ (p : Pair) (s : State),
    let a := s.hl.toNat
    let b := (s.pair p).toNat
    Encodes (Instr.addHLPair p) (0x09 + 16 * p.code) 1 8 8 ∧
    ∃ t h, exec (Instr.addHLPair p) s = .next t ∧ t.hl.toNat = (a + b) % 65536 ∧
      FlagsAre t s.flags.z false h (decide (a + b > 65535)) ∧
      (s.cfg.hc16 = .bit11 → h = decide (a % 4096 + b % 4096 > 4095)) ∧
      (s.cfg.hc16 = .other → h = Config.otherHalfCarry16 s.hl (s.pair p)) ∧
      RegsKept s t [.h, .l] ∧ PointersKept s t ∧ MachineKept s t ∧ Charged s t (Instr.addHLPair p) true

/-! ### Control transfers -/

/-- R191, R193, R194: the unconditional jumps. The PC of the relative one is already past its two bytes. JP nn costs 16
cycles under any parameters (R6). -/
def Obligations.Jumps : Prop :=
  ∀ (nn : Word) (e : Byte),
    (Encodes (.jpnn nn) 0xC3 3 16 16 ∧ ImmediateFaults (.jpnn nn)) ∧ Encodes .jpHL 0xE9 1 4 4 ∧
    (Encodes (.jre e) 0x18 2 12 12 ∧ ImmediateFaults (.jre e)) ∧
    ∀ (s : State) (i : Instr) (target : Word),
      (i, target) ∈ [(.jpnn nn, nn), (.jpHL, joinBytes (s.reg .h) (s.reg .l)),
        (.jre e, s.pc + BitVec.ofInt 16 e.toInt)] →
      ∃ t, exec i s = .next t ∧ t.pc = target ∧ t.sp = s.sp ∧ RegsKept s t [] ∧ FlagsKept s t ∧ MachineKept s t ∧
        Charged s t i true ∧ (i = .jpnn nn → t.cycles = 16)

/-- R192, R195 with R190: the four conditions, and the conditional jumps, taken and not taken. -/
def Obligations.ConditionalJumps : Prop :=
  (∀ s : State,
    condHolds .nz s = !s.regs.f.getLsbD 7 ∧ condHolds .z s = s.regs.f.getLsbD 7 ∧
    condHolds .nc s = !s.regs.f.getLsbD 4 ∧ condHolds .c s = s.regs.f.getLsbD 4) ∧
  ∀ (cc : Cond) (nn : Word) (e : Byte),
    (Encodes (Instr.jpCond cc nn) (0xC2 + 8 * cc.code) 3 16 12 ∧ ImmediateFaults (Instr.jpCond cc nn)) ∧
    (Encodes (Instr.jrCond cc e) (0x20 + 8 * cc.code) 2 12 8 ∧ ImmediateFaults (Instr.jrCond cc e)) ∧
    ∀ (s : State) (i : Instr) (target : Word),
      (i, target) ∈ [(Instr.jpCond cc nn, nn), (Instr.jrCond cc e, s.pc + BitVec.ofInt 16 e.toInt)] →
      ∃ t, exec i s = .next t ∧ t.pc = (if condHolds cc s then target else s.pc) ∧ t.sp = s.sp ∧ RegsKept s t [] ∧
        FlagsKept s t ∧ MachineKept s t ∧ Charged s t i (condHolds cc s)

/-- R196, R201: CALL and RST push the address after the instruction and go to the target. -/
def Obligations.CallAndRst : Prop :=
  ∀ (nn : Word) (y : Fin 8),
    (Encodes (.callnn nn) 0xCD 3 24 24 ∧ ImmediateFaults (.callnn nn)) ∧ Encodes (Instr.rst y) (0xC7 + 8 * y.val) 1 16 16 ∧
    ∀ (s : State) (i : Instr) (target : Word),
      (i, target) ∈ [(.callnn nn, nn), (Instr.rst y, BitVec.ofNat 16 (8 * y.val))] →
      (WordWritable s.cfg (s.sp - 2#16) →
        ∃ t, exec i s = .next t ∧ t.pc = target ∧ t.sp = s.sp - 2#16 ∧ StoredWord s t (s.sp - 2#16) s.pc ∧
          RegsKept s t [] ∧ FlagsKept s t ∧ StoreKept s t ∧ Charged s t i true) ∧
      WordStoreFaults s (s.sp - 2#16) (exec i s)

/-- R197: CALL cc; not taken it touches neither SP nor memory, taken it is CALL. -/
def Obligations.ConditionalCall : Prop :=
  ∀ (cc : Cond) (nn : Word) (s : State),
    Encodes (Instr.callCond cc nn) (0xC4 + 8 * cc.code) 3 24 12 ∧ ImmediateFaults (Instr.callCond cc nn) ∧
    (condHolds cc s = false →
      ∃ t, exec (Instr.callCond cc nn) s = .next t ∧ RegsKept s t [] ∧ FlagsKept s t ∧ PointersKept s t ∧
        MachineKept s t ∧ Charged s t (Instr.callCond cc nn) false) ∧
    (condHolds cc s = true →
      (WordWritable s.cfg (s.sp - 2#16) →
        ∃ t, exec (Instr.callCond cc nn) s = .next t ∧ t.pc = nn ∧ t.sp = s.sp - 2#16 ∧
          StoredWord s t (s.sp - 2#16) s.pc ∧ RegsKept s t [] ∧ FlagsKept s t ∧ StoreKept s t ∧
          Charged s t (Instr.callCond cc nn) true) ∧
      WordStoreFaults s (s.sp - 2#16) (exec (Instr.callCond cc nn) s))

/-- R198, R200: RET and RETI pop PC; RETI also sets IME. -/
def Obligations.RetAndReti : Prop :=
  Encodes .ret 0xC9 1 16 16 ∧ Encodes .reti 0xD9 1 16 16 ∧
  ∀ (s : State) (i : Instr), (i = .ret ∨ i = .reti) →
    (∀ v, readWord .read s s.sp = .ok v →
      ∃ t, exec i s = .next t ∧ t.pc = v ∧ t.sp = s.sp + 2#16 ∧ t.ime = (s.ime || decide (i = .reti)) ∧
        t.halted = s.halted ∧ RegsKept s t [] ∧ FlagsKept s t ∧ DevicesKept s t ∧ OutputsKept s t ∧ MemoryKept s t ∧
        Charged s t i true) ∧
    (∀ e, readWord .read s s.sp = .error e → exec i s = .fault e)

/-- R199: RET cc; not taken it touches neither SP nor PC, and it can fault only when taken. -/
def Obligations.ConditionalRet : Prop :=
  ∀ (cc : Cond) (s : State),
    Encodes (Instr.retCond cc) (0xC0 + 8 * cc.code) 1 20 8 ∧
    (condHolds cc s = false →
      ∃ t, exec (Instr.retCond cc) s = .next t ∧ RegsKept s t [] ∧ FlagsKept s t ∧ PointersKept s t ∧
        MachineKept s t ∧ Charged s t (Instr.retCond cc) false) ∧
    (condHolds cc s = true →
      (∀ v, readWord .read s s.sp = .ok v →
        ∃ t, exec (Instr.retCond cc) s = .next t ∧ t.pc = v ∧ t.sp = s.sp + 2#16 ∧ RegsKept s t [] ∧ FlagsKept s t ∧
          MachineKept s t ∧ Charged s t (Instr.retCond cc) true) ∧
      (∀ e, readWord .read s s.sp = .error e → exec (Instr.retCond cc) s = .fault e))

/-! ### System instructions -/

/-- R210 to R214: NOP does nothing, HALT and STOP halt, DI and EI write IME; nothing else changes. STOP reads and
ignores its second byte. -/
def Obligations.SystemInstructions : Prop :=
  ∀ n : Byte,
    Encodes .nop 0x00 1 4 4 ∧ Encodes .halt 0x76 1 4 4 ∧ Encodes .di 0xF3 1 4 4 ∧ Encodes .ei 0xFB 1 4 4 ∧
    (Encodes (.stop n) 0x10 2 4 4 ∧ ImmediateFaults (.stop n)) ∧
    ∀ (s : State) (i : Instr) (ime halted : Bool),
      (i, ime, halted) ∈ [(.nop, s.ime, s.halted), (.halt, s.ime, true), (.stop n, s.ime, true), (.di, false, s.halted),
        (.ei, true, s.halted)] →
      ∃ t, exec i s = .next t ∧ t.ime = ime ∧ t.halted = halted ∧ RegsKept s t [] ∧ FlagsKept s t ∧ PointersKept s t ∧
        DevicesKept s t ∧ OutputsKept s t ∧ MemoryKept s t ∧ Charged s t i true

/-- R103, R104, R105, R215: the twelve bytes that spell no instruction. Each decodes to its own ill-formed row, whose
meaning stops with the opcode and the address before PC. -/
def Obligations.UnassignedRowsStop : Prop :=
  (∀ op : Byte, (Instr.unassigned op).isSome = true ↔
    op.toNat ∈ [0xCB, 0xD3, 0xDB, 0xDD, 0xE3, 0xE4, 0xEB, 0xEC, 0xED, 0xF4, 0xFC, 0xFD]) ∧
  ∀ (op : Byte) (i : Instr), Instr.unassigned op = some i →
    decode [op] = .ok (i, []) ∧ i.wf = false ∧ ∀ s : State, exec i s = .fault (.unknownOpcode op (s.pc - 1#16))

/-! ### The step -/

/-- R91, R92, R220, R252, R270: the instruction at PC is run with PC past it, then the interrupt phase, then the picture
unit by the cycles counted. Log entry 3: the immediate is fetched before the meaning starts. -/
def Obligations.StepRunsTheDecodedInstruction : Prop :=
  ∀ (s : State) (i : Instr), Running s → InstructionAt s i → i.wf = true → populated s.cfg i.opcode = true →
    step s = thenRun (thenRun (exec i (s.setPC (s.pc + BitVec.ofNat 16 i.length))) interruptPhase)
      fun t => .next (ppuStep t.cycles t)

/-- R91, R103, R110, R215: a fetch fault of the opcode ends the step; an opcode the table does not populate faults with
its own address, whatever the bytes after it; which opcodes the presets populate. -/
def Obligations.OpcodeFetchFaults : Prop :=
  (∀ (s : State) (e : Fault), Running s → readByte .fetch s s.pc = .error e → step s = .fault e) ∧
  (∀ (s : State) (op : Byte), Running s → readByte .fetch s s.pc = .ok op → populated s.cfg op = false →
    step s = .fault (.unknownOpcode op s.pc)) ∧
  ∀ (cfg : Config) (op : Byte),
    ((Instr.unassigned op).isSome = true → populated cfg op = false) ∧
    (cfg.implOpcodes = .docAttested → (populated cfg op = true ↔ op = 0xAF#8 ∨ op = 0xC3#8)) ∧
    (cfg.implOpcodes = .full → (populated cfg op = true ↔ (Instr.unassigned op).isSome = false ∧ op ≠ 0x10#8)) ∧
    (cfg.implOpcodes = .fullWithStop → (populated cfg op = true ↔ (Instr.unassigned op).isSome = false)) ∧
    ∀ ops, cfg.implOpcodes = .custom ops →
      (populated cfg op = true ↔ (Instr.unassigned op).isSome = false ∧ op ∈ ops)

/-- R211, R220, R239: the halted processor fetches nothing, costs 4 cycles and runs the interrupt phase. -/
def Obligations.HaltedStep : Prop :=
  ∀ s : State, s.fault = none → s.halted = true →
    step s = thenRun (interruptPhase (s.setCycles 4)) fun t => .next (ppuStep t.cycles t)

/-- R30, R246, R303: nothing leaves the halted state; every step of it keeps the operand registers and F and sets no
IME; where no interrupt is served it answers a next state, costs 4 cycles and keeps SP, PC, IME, IE and memory too. -/
def Obligations.HaltIsForever : Prop :=
  ∀ s : State, s.fault = none → s.halted = true →
    (∀ t, step s = .next t → t.halted = true ∧ t.fault = none ∧ RegsKept s t [] ∧ FlagsKept s t ∧
      (t.ime = true → s.ime = true)) ∧
    (s.ime = false ∨ servedSources s = [] →
      ∃ t, step s = .next t ∧ PointersKept s t ∧ t.ime = s.ime ∧ t.ie = s.ie ∧ t.mem = s.mem ∧ t.cycles = 4)

/-- R43, R47, R67, R68, R87: no step changes a byte of the cartridge, the parameters or, with them, the binding table. -/
def Obligations.RomAndParametersNeverChange : Prop :=
  ∀ s t : State, step s = .next t → t.cfg = s.cfg ∧ cartridgeData t = cartridgeData s ∧
    ∀ k (a : Word), a.toNat < 0x8000 → readByte k t a = readByte k s a

/-- R25, R35, R37, R41 and the canonical form of memory: every step keeps the invariant. -/
def Obligations.StepKeepsTheInvariant : Prop := ∀ s t : State, State.Inv s → step s = .next t → State.Inv t

/-- R302: a processor step costs 4 to 84 cycles, 4 to 64 when halted, with any costs in the source's range 4 to 24; so a
step crosses at most one line. -/
def Obligations.StepCostBounds : Prop :=
  ∀ s t : State, State.Inv s → Config.wf s.cfg = true → step s = .next t →
    4 ≤ t.cycles ∧ t.cycles ≤ 84 ∧ (s.halted = true → t.cycles ≤ 64) ∧
    ((t.ppu.ly = s.ppu.ly ∧ t.ppu.acc = s.ppu.acc + t.cycles) ∨
      (t.ppu.ly.toNat = (s.ppu.ly.toNat + 1) % 154 ∧ t.ppu.acc + 456 = s.ppu.acc + t.cycles))

/-- R29, R30, R231, R246: only EI, DI and RETI write IME, only HALT and STOP write the run state, and no instruction
writes the frame buffer, LY, the accumulator or a parameter. -/
def Obligations.OnlyNamedInstructionsWriteControl : Prop :=
  ∀ (i : Instr) (s t : State), exec i s = .next t →
    (i ≠ .ei → i ≠ .di → i ≠ .reti → t.ime = s.ime) ∧ (entersHalt i = false → t.halted = s.halted) ∧ OutputsKept s t

/-- R26 and the `flags` column of spec/opcode_table.json: an instruction keeps every flag its opcode does not name. -/
def Obligations.FlagsWrittenAsTheTableSays : Prop :=
  ∀ (i : Instr) (s t : State), exec i s = .next t →
    let w := flagsWritten i.opcode
    (w.z = false → t.flags.z = s.flags.z) ∧ (w.n = false → t.flags.n = s.flags.n) ∧
    (w.h = false → t.flags.h = s.flags.h) ∧ (w.c = false → t.flags.c = s.flags.c)

/-! ### Interrupts -/

/-- R235, R236, R237: one dispatch. The spec's vectors are its decision D14. -/
def Obligations.DispatchOfOneSource : Prop :=
  ∀ (n : Fin 5) (s : State),
    (WordWritable s.cfg (s.sp - 2#16) →
      ∃ t, dispatch n.val s = .next t ∧ t.pc = BitVec.ofNat 16 (0x40 + 8 * n.val) ∧ t.sp = s.sp - 2#16 ∧
        t.ime = false ∧ t.iflag = s.iflag &&& ~~~(BitVec.ofNat 8 (2 ^ n.val)) ∧ t.ie = s.ie ∧ t.halted = s.halted ∧
        t.cycles = s.cycles + 12 ∧ RegsKept s t [] ∧ FlagsKept s t ∧ OutputsKept s t ∧
        (∀ k, readByte k t (s.sp - 2#16) = .ok (valueAfterStore s (s.sp - 2#16) (lowByte s.pc))) ∧
        (∀ k, readByte k t (s.sp - 1#16) = .ok (valueAfterStore s (s.sp - 1#16) (highByte s.pc))) ∧
        ∀ k b, b ≠ s.sp - 2#16 → b ≠ s.sp - 1#16 → b ≠ 0xFF0F#16 → readByte k t b = readByte k s b) ∧
    WordStoreFaults s (s.sp - 2#16) (dispatch n.val s)

/-- R231, R234, R235, R238: with IME set the sources pending and enabled at the start, and no others, are dispatched
in ascending order, so the highest has the last word on PC; with IME clear nothing happens. -/
def Obligations.InterruptPhaseServesTheSnapshot : Prop :=
  ∀ s : State,
    (s.ime = false → interruptPhase s = .next s) ∧
    (s.ime = true → interruptPhase s = (servedSources s).foldl (fun o i => thenRun o (dispatch i)) (.next s)) ∧
    ∀ t, s.ime = true → interruptPhase s = .next t →
      t.sp = s.sp - BitVec.ofNat 16 (2 * (servedSources s).length) ∧ t.cycles = s.cycles + 12 * (servedSources s).length ∧
      t.iflag = s.iflag &&& ~~~(s.ie &&& s.iflag &&& 0x1F#8) ∧ (servedSources s = [] → t = s) ∧
      ∀ n, (servedSources s).getLast? = some n → t.ime = false ∧ t.pc = BitVec.ofNat 16 (0x40 + 8 * n)

/-- R200, R213, R214, R297: EI, DI and RETI take effect in the interrupt phase of their own step (the spec's decision
D16). -/
def Obligations.EnableTakesEffectAtOnce : Prop :=
  ∀ s : State, Running s →
    (populated s.cfg 0xFB#8 = true → readByte .fetch s s.pc = .ok 0xFB#8 →
      cpuStep s = serviceInterrupts (((s.setPC (s.pc + 1#16)).setIme true).charge 0xFB#8)) ∧
    (populated s.cfg 0xF3#8 = true → readByte .fetch s s.pc = .ok 0xF3#8 →
      cpuStep s = .next (((s.setPC (s.pc + 1#16)).setIme false).charge 0xF3#8)) ∧
    ∀ v, populated s.cfg 0xD9#8 = true → readByte .fetch s s.pc = .ok 0xD9#8 → readWord .read s s.sp = .ok v →
      cpuStep s = serviceInterrupts ((((s.setSP (s.sp + 2#16)).setPC v).setIme true).charge 0xD9#8)

/-! ### Memory and the bus -/

/-- R52, R59, R60, R63, R67: the address map, byte by byte: what a read of each address answers. -/
def Obligations.AddressMap : Prop :=
  ∀ (k : Access) (s : State) (a : Word),
    let n := a.toNat
    let mapped := n < 0xA000 ∨ (0xC000 ≤ n ∧ n < 0xE000) ∨ (0xFE00 ≤ n ∧ n < 0xFEA0) ∨ n = 0xFF0F ∨
      (0xFF40 ≤ n ∧ n < 0xFF4C) ∨ (s.cfg.mapHram = true ∧ 0xFF80 ≤ n ∧ n < 0xFFFF) ∨ n = 0xFFFF
    (¬ mapped → readByte k s a = .error (.busUnmapped a k)) ∧
    (n < 0x8000 → s.cfg.romLen ≤ n → readByte k s a = .error (.deviceRange a)) ∧
    (mapped → (n < 0x8000 → n < s.cfg.romLen) → ∃ v, readByte k s a = .ok v) ∧
    (Writable s.cfg a ↔ mapped ∧ 0x8000 ≤ n)

/-- R33, R35, R65, R66, R251: what each mapped register reads as, STAT with the mode in its low bits. -/
def Obligations.RegisterReads : Prop :=
  ∀ (k : Access) (s : State) (p : Nat) (v : Byte),
    let mode := if 144 ≤ s.ppu.ly.toNat then 1#8 else if s.ppu.acc < 80 then 2#8 else if s.ppu.acc < 252 then 3#8 else 0#8
    (p, v) ∈ [(0xFF0F, s.iflag), (0xFFFF, s.ie), (0xFF40, s.ppu.lcdc), (0xFF41, (s.ppu.stat &&& 0xFC#8) ||| mode),
      (0xFF42, s.ppu.scy), (0xFF43, s.ppu.scx), (0xFF44, s.ppu.ly), (0xFF45, s.ppu.lyc), (0xFF46, s.ppu.dma),
      (0xFF47, s.ppu.bgp), (0xFF48, s.ppu.obp0), (0xFF49, s.ppu.obp1), (0xFF4A, s.ppu.wy), (0xFF4B, s.ppu.wx)] →
    readByte k s (BitVec.ofNat 16 p) = .ok v

/-- R52, R55, R57, R61 to R68, R75: a byte write stores exactly one byte, whatever the device, and touches no processor
register; where it cannot it faults. -/
def Obligations.ByteWrites : Prop :=
  ∀ (s : State) (a : Word) (v : Byte),
    (Writable s.cfg a →
      ∃ t, writeByte s a v = .ok t ∧ StoredByte s t a v ∧ t.regs = s.regs ∧ t.cycles = s.cycles ∧ StoreKept s t) ∧
    (owner s.cfg a = none → writeByte s a v = .error (.busUnmapped a .write)) ∧
    (owner s.cfg a = some .rom → writeByte s a v = .error (.romWrite a))

/-- R54, R56, R58, R72: a word access is two byte accesses to one device, low byte first, at any address. -/
def Obligations.WordAccesses : Prop :=
  ∀ (k : Access) (s : State) (a v : Word),
    (∀ e, readByte k s a = .error e → readWord k s a = .error e) ∧
    (∀ lo, readByte k s a = .ok lo → owner s.cfg (a + 1#16) ≠ owner s.cfg a →
      readWord k s a = .error (.deviceRange (a + 1#16))) ∧
    (∀ lo hi, readByte k s a = .ok lo → owner s.cfg (a + 1#16) = owner s.cfg a → readByte k s (a + 1#16) = .ok hi →
      ∃ w, readWord k s a = .ok w ∧ w.toNat = 256 * hi.toNat + lo.toNat) ∧
    (∀ lo e, readByte k s a = .ok lo → owner s.cfg (a + 1#16) = owner s.cfg a → readByte k s (a + 1#16) = .error e →
      readWord k s a = .error e) ∧
    (∀ e, writeByte s a (lowByte v) = .error e → writeWord s a v = .error e) ∧
    (∀ t, writeWord s a v = .ok t ↔
      owner s.cfg (a + 1#16) = owner s.cfg a ∧
        ∃ u, writeByte s a (lowByte v) = .ok u ∧ writeByte u (a + 1#16) (highByte v) = .ok t) ∧
    ∀ t, writeByte s a (lowByte v) = .ok t → owner s.cfg (a + 1#16) ≠ owner s.cfg a →
      writeWord s a v = .error (.deviceRange (a + 1#16))

/-- R76: a word written reads back, for every pair of plainly stored bytes of one device; not for ROM, nor for a word that
covers STAT or LY, nor for a word that leaves its device. -/
def Obligations.WordRoundTrip : Prop :=
  ∀ (k : Access) (s : State) (a : Word),
    let covers := a = 0xFF40#16 ∨ a = 0xFF41#16 ∨ a = 0xFF43#16 ∨ a = 0xFF44#16
    (WordWritable s.cfg a → ¬ covers → ∀ v, ∃ t, writeWord s a v = .ok t ∧ readWord k t a = .ok v) ∧
    (covers → ∃ v t, writeWord s a v = .ok t ∧ readWord k t a ≠ .ok v) ∧
    (¬ WordWritable s.cfg a → ∀ v, ∃ e, writeWord s a v = .error e)

/-! ### The picture unit -/

/-- R253, R265: the line counter and the accumulator after any number of cycles, and what the picture unit never
writes. It sets IF bit 0 and no other bit. -/
def Obligations.LineAdvance : Prop :=
  ∀ (n : Nat) (s : State), s.ppu.ly.toNat < 154 →
    let t := ppuStep n s
    t.ppu.acc = (s.ppu.acc + n) % 456 ∧ t.ppu.ly.toNat = (s.ppu.ly.toNat + (s.ppu.acc + n) / 456) % 154 ∧
    t.ppu = { s.ppu with ly := t.ppu.ly, acc := t.ppu.acc } ∧ t.regs = s.regs ∧ ControlKept s t ∧ t.ie = s.ie ∧
    t.mem = s.mem ∧ t.fault = s.fault ∧ t.cfg = s.cfg ∧ t.cycles = s.cycles ∧
    (t.iflag = s.iflag ∨ t.iflag = s.iflag ||| 1#8)

/-- R254, R263: the cycles that bring LY from 143 to 144 request VBlank and signal one frame, other cycles of up to one
line do neither; and over any steps of 70,224 cycles in all the picture unit comes back to its position, signals exactly
one frame and has requested VBlank. -/
def Obligations.OneFramePer70224Cycles : Prop :=
  ∀ s : State, s.ppu.ly.toNat < 154 → s.ppu.acc < 456 →
    (∀ n, s.ppu.acc + n < 912 →
      let reached := s.ppu.ly.toNat = 143 ∧ 456 ≤ s.ppu.acc + n
      (reached → (ppuStep n s).frames = s.frames + 1 ∧ (ppuStep n s).iflag = s.iflag ||| 1#8) ∧
      (¬ reached → (ppuStep n s).frames = s.frames ∧ (ppuStep n s).iflag = s.iflag)) ∧
    ∀ costs : List Nat, costs.sum = 70224 →
      let t := costs.foldl (fun u n => ppuStep n u) s
      t.frames = s.frames + 1 ∧ t.iflag.getLsbD 0 = true ∧ framePosition t = framePosition s

/-- R255, R261, R264: when a step renders, it renders the line it is on, from the state it leaves, and no other row; else
the frame buffer keeps its contents. -/
def Obligations.RenderTrigger : Prop :=
  ∀ (n : Nat) (s : State),
    let t := ppuStep n s
    let entered := 80 ≤ t.ppu.acc ∧ (s.ppu.acc < 80 ∨ 456 ≤ s.ppu.acc + n)
    (∀ ly, (h : ly < 144) → t.ppu.ly.toNat = ly → entered → t.fb[ly] = renderedLine t ly) ∧
    ∀ y, (h : y < 144) → ¬ (t.ppu.ly.toNat = y ∧ entered) → t.fb[y] = s.fb[y]

/-- R256 to R260: every pixel of a rendered line, from bytes the bus reads, all of them in VRAM. -/
def Obligations.RenderedPixel : Prop :=
  ∀ (s : State) (ly x : Nat) (h : ly < 144) (h' : x < 160),
    let yy := (s.ppu.scy.toNat + ly) % 256
    let xx := (s.ppu.scx.toNat + x) % 256
    let map := if s.ppu.lcdc.getLsbD 3 then 0x9C00 else 0x9800
    ∃ tile lo hi : Byte,
      let tileBase := if s.ppu.lcdc.getLsbD 4 then 0x8000 + 16 * tile.toNat
        else if tile.toNat < 128 then 0x9000 + 16 * tile.toNat else 0x8000 + 16 * tile.toNat
      let index := 2 * (hi.getLsbD (7 - xx % 8)).toNat + (lo.getLsbD (7 - xx % 8)).toNat
      readByte .read s (BitVec.ofNat 16 (map + 32 * (yy / 8) + xx / 8)) = .ok tile ∧
      readByte .read s (BitVec.ofNat 16 (tileBase + 2 * (yy % 8))) = .ok lo ∧
      readByte .read s (BitVec.ofNat 16 (tileBase + 2 * (yy % 8) + 1)) = .ok hi ∧
      ((renderLine ly s).fb[ly][x]).toNat = s.ppu.bgp.toNat / 4 ^ index % 4

/-! ### Construction, reset and the end of a run -/

/-- R291: the state after reset. SP, PC and the general registers are the source's, the other zeros the spec's decisions
D21, D22 and D32; the image and the zero memory are log entries 1 and 2. -/
def Obligations.ResetState : Prop :=
  let s := State.reset
  (∀ r, s.reg r = 0#8) ∧ s.regs.f = 0#8 ∧ s.sp = 0#16 ∧ s.pc = 0x100#16 ∧ s.ime = false ∧
  s.halted = false ∧ s.ie = 0#8 ∧ s.iflag = 0#8 ∧ s.frames = 0 ∧ s.fault = none ∧ s.ppu.acc = 0 ∧
  (∀ p v, (p, v) ∈ [(0xFF40, 0#8), (0xFF41, 2#8), (0xFF42, 0#8), (0xFF43, 0#8), (0xFF44, 0#8), (0xFF45, 0#8), (0xFF46, 0#8),
    (0xFF47, 0#8), (0xFF48, 0#8), (0xFF49, 0#8), (0xFF4A, 0#8), (0xFF4B, 0#8)] →
    readByte .read s (BitVec.ofNat 16 p) = .ok v) ∧
  ∀ y x, (h : y < 144) → (h' : x < 160) → s.fb[y][x] = 0#2

/-- The invariant holds right after reset. -/
def Obligations.ResetSatisfiesTheInvariant : Prop := State.Inv State.reset

/-- R51, R70, R223, R290: when construction fails, and that it succeeds otherwise. -/
def Obligations.ConfigurationErrors : Prop :=
  (∀ (params : Config) (ram : List Host.Cell),
    construct none params ram = .error .unreadableImage ∧
    ∀ bytes : List Byte,
      (bytes.length < 0x148 → construct (some bytes) params ram = .error .imageTooShort) ∧
      ∀ kind, bytes[0x147]? = some kind →
        (kind ≠ 0#8 → construct (some bytes) params ram = .error (.unsupportedCartridge kind)) ∧
        (kind = 0#8 → ∃ s, construct (some bytes) params ram = .ok s)) ∧
  ∀ (table : List Binding) (b : Binding),
    ((∃ r ∈ table, b.first ≤ r.last ∧ r.first ≤ b.last) → registerRange table b = .error .overlap) ∧
    ((∀ r ∈ table, ¬ (b.first ≤ r.last ∧ r.first ≤ b.last)) → registerRange table b = .ok (table ++ [b]))

/-- R67, R290, R291, R294: what a constructed machine holds: the reset values, the image, the initial RAM it was
given where that names an address once, and the invariant. -/
def Obligations.ConstructedMachine : Prop :=
  ∀ (bytes : List Byte) (params : Config) (ram : List Host.Cell) (s : State),
    construct (some bytes) params ram = .ok s →
    s.regs = State.reset.regs ∧ s.ime = false ∧ s.halted = false ∧ s.ie = 0#8 ∧ s.iflag = 0#8 ∧ s.ppu = State.reset.ppu ∧
    s.fb = State.reset.fb ∧ s.frames = 0 ∧ s.fault = none ∧
    s.cfg = { params with romLen := bytes.length, romRest := bytes.drop 0x8000 } ∧ cartridgeData s = bytes ∧
    State.Inv s ∧
    (∀ k (a : Word), a.toNat < 0x8000 → ∀ v, bytes[a.toNat]? = some v → readByte k s a = .ok v) ∧
    ∀ k (a : Word) v, isRamAddress s.cfg a.toNat = true → (a.toNat, v) ∈ ram →
      (∀ w, (a.toNat, w) ∈ ram → w = v) → readByte k s a = .ok v

/-- R46, R222, R270: a fault is recorded, the frame buffer keeps its contents, and no step follows; the record is never
cleared. What else the state holds then is free, and that no message of the host has an effect then is deduced (log
entries 8 and 15). -/
def Obligations.FatalErrorEndsTheRun : Prop :=
  ∀ (s : State) (r : Fault),
    (s.fault = some r → step s = .fault r ∧ driverStep s = s ∧
      ∀ (d : Driver) (input : HostInput), d.machine = s → driverTurn d input = d) ∧
    (s.fault = none → step s = .fault r →
      (driverStep s).fault = some r ∧ (driverStep s).fb = s.fb ∧ driverStep (driverStep s) = driverStep s)

/-! ### Encoding -/

/-- R90 to R92, R106: decoding the bytes of any instruction, followed by any bytes, gives it and them back, with every
operand at every value. -/
def Obligations.DecodeInvertsEncode : Prop :=
  ∀ (i : Instr) (rest : List Byte), decode (encode i ++ rest) = .ok (i, rest)

/-- R90, R106: what decodes is the encoding of what it decodes to: one word, one instruction. -/
def Obligations.EncodeInvertsDecode : Prop :=
  ∀ (bytes rest : List Byte) (i : Instr), decode bytes = .ok (i, rest) → bytes = encode i ++ rest

/-- R98 to R102, R107: words written out from the encodings of the spec, one or more of each family. -/
def Obligations.SpecWordsDecode : Prop :=
  decode [0xAF] = .ok (.xorA, []) ∧ decode [0xC3, 0x00, 0x02] = .ok (.jpnn 0x0200, []) ∧
  decode [0x41] = .ok (.ldBC, []) ∧ decode [0x7E] = .ok (.ldAAtHL, []) ∧ decode [0x76] = .ok (.halt, []) ∧
  decode [0x31, 0x00, 0xE0] = .ok (.ldSPnn 0xE000, []) ∧ decode [0xE0, 0x40] = .ok (.ldhAtnA 0x40, []) ∧
  decode [0xF8, 0x02] = .ok (.ldHLSPe 0x02, []) ∧ decode [0x34] = .ok (.incAtHL, []) ∧
  decode [0x20, 0xFC] = .ok (.jrNZe 0xFC, []) ∧ decode [0xDC, 0x00, 0x03] = .ok (.callCnn 0x0300, []) ∧
  decode [0xFF] = .ok (.rst38, []) ∧ decode [0xF5] = .ok (.pushAF, []) ∧ decode [0xC1] = .ok (.popBC, []) ∧
  decode [0x29] = .ok (.addHLHL, []) ∧ decode [0xFB] = .ok (.ei, []) ∧ decode [0x10, 0x00] = .ok (.stop 0x00, [])
end

