-- ==== Sys2Proof/Laws/State.lean ====
section
/-! SUPPORT. One lemma per field per update of the state, and the laws of the register file: no later proof unfolds a
record update. -/

namespace Sys2Proof.Machine

variable (s : State)

@[simp] theorem State.setReg_regs (r : Reg8) (v : Byte) : (s.setReg r v).regs = s.regs.set r v := rfl
@[simp] theorem State.setReg_ime (r : Reg8) (v : Byte) : (s.setReg r v).ime = s.ime := rfl
@[simp] theorem State.setReg_halted (r : Reg8) (v : Byte) : (s.setReg r v).halted = s.halted := rfl
@[simp] theorem State.setReg_ie (r : Reg8) (v : Byte) : (s.setReg r v).ie = s.ie := rfl
@[simp] theorem State.setReg_iflag (r : Reg8) (v : Byte) : (s.setReg r v).iflag = s.iflag := rfl
@[simp] theorem State.setReg_ppu (r : Reg8) (v : Byte) : (s.setReg r v).ppu = s.ppu := rfl
@[simp] theorem State.setReg_mem (r : Reg8) (v : Byte) : (s.setReg r v).mem = s.mem := rfl
@[simp] theorem State.setReg_fb (r : Reg8) (v : Byte) : (s.setReg r v).fb = s.fb := rfl
@[simp] theorem State.setReg_frames (r : Reg8) (v : Byte) : (s.setReg r v).frames = s.frames := rfl
@[simp] theorem State.setReg_fault (r : Reg8) (v : Byte) : (s.setReg r v).fault = s.fault := rfl
@[simp] theorem State.setReg_cycles (r : Reg8) (v : Byte) : (s.setReg r v).cycles = s.cycles := rfl
@[simp] theorem State.setReg_cfg (r : Reg8) (v : Byte) : (s.setReg r v).cfg = s.cfg := rfl

@[simp] theorem State.setPair_regs (p : Pair) (v : Word) : (s.setPair p v).regs = s.regs.setPair p v := rfl
@[simp] theorem State.setPair_ime (p : Pair) (v : Word) : (s.setPair p v).ime = s.ime := rfl
@[simp] theorem State.setPair_halted (p : Pair) (v : Word) : (s.setPair p v).halted = s.halted := rfl
@[simp] theorem State.setPair_ie (p : Pair) (v : Word) : (s.setPair p v).ie = s.ie := rfl
@[simp] theorem State.setPair_iflag (p : Pair) (v : Word) : (s.setPair p v).iflag = s.iflag := rfl
@[simp] theorem State.setPair_ppu (p : Pair) (v : Word) : (s.setPair p v).ppu = s.ppu := rfl
@[simp] theorem State.setPair_mem (p : Pair) (v : Word) : (s.setPair p v).mem = s.mem := rfl
@[simp] theorem State.setPair_fb (p : Pair) (v : Word) : (s.setPair p v).fb = s.fb := rfl
@[simp] theorem State.setPair_frames (p : Pair) (v : Word) : (s.setPair p v).frames = s.frames := rfl
@[simp] theorem State.setPair_fault (p : Pair) (v : Word) : (s.setPair p v).fault = s.fault := rfl
@[simp] theorem State.setPair_cycles (p : Pair) (v : Word) : (s.setPair p v).cycles = s.cycles := rfl
@[simp] theorem State.setPair_cfg (p : Pair) (v : Word) : (s.setPair p v).cfg = s.cfg := rfl

@[simp] theorem State.setStackPair_regs (p : StackPair) (v : Word) : (s.setStackPair p v).regs = s.regs.setStackPair p v := rfl
@[simp] theorem State.setStackPair_ime (p : StackPair) (v : Word) : (s.setStackPair p v).ime = s.ime := rfl
@[simp] theorem State.setStackPair_halted (p : StackPair) (v : Word) : (s.setStackPair p v).halted = s.halted := rfl
@[simp] theorem State.setStackPair_ie (p : StackPair) (v : Word) : (s.setStackPair p v).ie = s.ie := rfl
@[simp] theorem State.setStackPair_iflag (p : StackPair) (v : Word) : (s.setStackPair p v).iflag = s.iflag := rfl
@[simp] theorem State.setStackPair_ppu (p : StackPair) (v : Word) : (s.setStackPair p v).ppu = s.ppu := rfl
@[simp] theorem State.setStackPair_mem (p : StackPair) (v : Word) : (s.setStackPair p v).mem = s.mem := rfl
@[simp] theorem State.setStackPair_fb (p : StackPair) (v : Word) : (s.setStackPair p v).fb = s.fb := rfl
@[simp] theorem State.setStackPair_frames (p : StackPair) (v : Word) : (s.setStackPair p v).frames = s.frames := rfl
@[simp] theorem State.setStackPair_fault (p : StackPair) (v : Word) : (s.setStackPair p v).fault = s.fault := rfl
@[simp] theorem State.setStackPair_cycles (p : StackPair) (v : Word) : (s.setStackPair p v).cycles = s.cycles := rfl
@[simp] theorem State.setStackPair_cfg (p : StackPair) (v : Word) : (s.setStackPair p v).cfg = s.cfg := rfl

@[simp] theorem State.setPC_regs (v : Word) : (s.setPC v).regs = { s.regs with pc := v } := rfl
@[simp] theorem State.setPC_ime (v : Word) : (s.setPC v).ime = s.ime := rfl
@[simp] theorem State.setPC_halted (v : Word) : (s.setPC v).halted = s.halted := rfl
@[simp] theorem State.setPC_ie (v : Word) : (s.setPC v).ie = s.ie := rfl
@[simp] theorem State.setPC_iflag (v : Word) : (s.setPC v).iflag = s.iflag := rfl
@[simp] theorem State.setPC_ppu (v : Word) : (s.setPC v).ppu = s.ppu := rfl
@[simp] theorem State.setPC_mem (v : Word) : (s.setPC v).mem = s.mem := rfl
@[simp] theorem State.setPC_fb (v : Word) : (s.setPC v).fb = s.fb := rfl
@[simp] theorem State.setPC_frames (v : Word) : (s.setPC v).frames = s.frames := rfl
@[simp] theorem State.setPC_fault (v : Word) : (s.setPC v).fault = s.fault := rfl
@[simp] theorem State.setPC_cycles (v : Word) : (s.setPC v).cycles = s.cycles := rfl
@[simp] theorem State.setPC_cfg (v : Word) : (s.setPC v).cfg = s.cfg := rfl

@[simp] theorem State.setSP_regs (v : Word) : (s.setSP v).regs = { s.regs with sp := v } := rfl
@[simp] theorem State.setSP_ime (v : Word) : (s.setSP v).ime = s.ime := rfl
@[simp] theorem State.setSP_halted (v : Word) : (s.setSP v).halted = s.halted := rfl
@[simp] theorem State.setSP_ie (v : Word) : (s.setSP v).ie = s.ie := rfl
@[simp] theorem State.setSP_iflag (v : Word) : (s.setSP v).iflag = s.iflag := rfl
@[simp] theorem State.setSP_ppu (v : Word) : (s.setSP v).ppu = s.ppu := rfl
@[simp] theorem State.setSP_mem (v : Word) : (s.setSP v).mem = s.mem := rfl
@[simp] theorem State.setSP_fb (v : Word) : (s.setSP v).fb = s.fb := rfl
@[simp] theorem State.setSP_frames (v : Word) : (s.setSP v).frames = s.frames := rfl
@[simp] theorem State.setSP_fault (v : Word) : (s.setSP v).fault = s.fault := rfl
@[simp] theorem State.setSP_cycles (v : Word) : (s.setSP v).cycles = s.cycles := rfl
@[simp] theorem State.setSP_cfg (v : Word) : (s.setSP v).cfg = s.cfg := rfl

@[simp] theorem State.setFlags_regs (x : Flags) : (s.setFlags x).regs = { s.regs with f := x.pack } := rfl
@[simp] theorem State.setFlags_ime (x : Flags) : (s.setFlags x).ime = s.ime := rfl
@[simp] theorem State.setFlags_halted (x : Flags) : (s.setFlags x).halted = s.halted := rfl
@[simp] theorem State.setFlags_ie (x : Flags) : (s.setFlags x).ie = s.ie := rfl
@[simp] theorem State.setFlags_iflag (x : Flags) : (s.setFlags x).iflag = s.iflag := rfl
@[simp] theorem State.setFlags_ppu (x : Flags) : (s.setFlags x).ppu = s.ppu := rfl
@[simp] theorem State.setFlags_mem (x : Flags) : (s.setFlags x).mem = s.mem := rfl
@[simp] theorem State.setFlags_fb (x : Flags) : (s.setFlags x).fb = s.fb := rfl
@[simp] theorem State.setFlags_frames (x : Flags) : (s.setFlags x).frames = s.frames := rfl
@[simp] theorem State.setFlags_fault (x : Flags) : (s.setFlags x).fault = s.fault := rfl
@[simp] theorem State.setFlags_cycles (x : Flags) : (s.setFlags x).cycles = s.cycles := rfl
@[simp] theorem State.setFlags_cfg (x : Flags) : (s.setFlags x).cfg = s.cfg := rfl

@[simp] theorem State.setIme_regs (v : Bool) : (s.setIme v).regs = s.regs := rfl
@[simp] theorem State.setIme_ime (v : Bool) : (s.setIme v).ime = v := rfl
@[simp] theorem State.setIme_halted (v : Bool) : (s.setIme v).halted = s.halted := rfl
@[simp] theorem State.setIme_ie (v : Bool) : (s.setIme v).ie = s.ie := rfl
@[simp] theorem State.setIme_iflag (v : Bool) : (s.setIme v).iflag = s.iflag := rfl
@[simp] theorem State.setIme_ppu (v : Bool) : (s.setIme v).ppu = s.ppu := rfl
@[simp] theorem State.setIme_mem (v : Bool) : (s.setIme v).mem = s.mem := rfl
@[simp] theorem State.setIme_fb (v : Bool) : (s.setIme v).fb = s.fb := rfl
@[simp] theorem State.setIme_frames (v : Bool) : (s.setIme v).frames = s.frames := rfl
@[simp] theorem State.setIme_fault (v : Bool) : (s.setIme v).fault = s.fault := rfl
@[simp] theorem State.setIme_cycles (v : Bool) : (s.setIme v).cycles = s.cycles := rfl
@[simp] theorem State.setIme_cfg (v : Bool) : (s.setIme v).cfg = s.cfg := rfl

@[simp] theorem State.setHalted_regs (v : Bool) : (s.setHalted v).regs = s.regs := rfl
@[simp] theorem State.setHalted_ime (v : Bool) : (s.setHalted v).ime = s.ime := rfl
@[simp] theorem State.setHalted_halted (v : Bool) : (s.setHalted v).halted = v := rfl
@[simp] theorem State.setHalted_ie (v : Bool) : (s.setHalted v).ie = s.ie := rfl
@[simp] theorem State.setHalted_iflag (v : Bool) : (s.setHalted v).iflag = s.iflag := rfl
@[simp] theorem State.setHalted_ppu (v : Bool) : (s.setHalted v).ppu = s.ppu := rfl
@[simp] theorem State.setHalted_mem (v : Bool) : (s.setHalted v).mem = s.mem := rfl
@[simp] theorem State.setHalted_fb (v : Bool) : (s.setHalted v).fb = s.fb := rfl
@[simp] theorem State.setHalted_frames (v : Bool) : (s.setHalted v).frames = s.frames := rfl
@[simp] theorem State.setHalted_fault (v : Bool) : (s.setHalted v).fault = s.fault := rfl
@[simp] theorem State.setHalted_cycles (v : Bool) : (s.setHalted v).cycles = s.cycles := rfl
@[simp] theorem State.setHalted_cfg (v : Bool) : (s.setHalted v).cfg = s.cfg := rfl

@[simp] theorem State.setMem_regs (m : Memory) : (s.setMem m).regs = s.regs := rfl
@[simp] theorem State.setMem_ime (m : Memory) : (s.setMem m).ime = s.ime := rfl
@[simp] theorem State.setMem_halted (m : Memory) : (s.setMem m).halted = s.halted := rfl
@[simp] theorem State.setMem_ie (m : Memory) : (s.setMem m).ie = s.ie := rfl
@[simp] theorem State.setMem_iflag (m : Memory) : (s.setMem m).iflag = s.iflag := rfl
@[simp] theorem State.setMem_ppu (m : Memory) : (s.setMem m).ppu = s.ppu := rfl
@[simp] theorem State.setMem_mem (m : Memory) : (s.setMem m).mem = m := rfl
@[simp] theorem State.setMem_fb (m : Memory) : (s.setMem m).fb = s.fb := rfl
@[simp] theorem State.setMem_frames (m : Memory) : (s.setMem m).frames = s.frames := rfl
@[simp] theorem State.setMem_fault (m : Memory) : (s.setMem m).fault = s.fault := rfl
@[simp] theorem State.setMem_cycles (m : Memory) : (s.setMem m).cycles = s.cycles := rfl
@[simp] theorem State.setMem_cfg (m : Memory) : (s.setMem m).cfg = s.cfg := rfl

@[simp] theorem State.setPpu_regs (p : Ppu) : (s.setPpu p).regs = s.regs := rfl
@[simp] theorem State.setPpu_ime (p : Ppu) : (s.setPpu p).ime = s.ime := rfl
@[simp] theorem State.setPpu_halted (p : Ppu) : (s.setPpu p).halted = s.halted := rfl
@[simp] theorem State.setPpu_ie (p : Ppu) : (s.setPpu p).ie = s.ie := rfl
@[simp] theorem State.setPpu_iflag (p : Ppu) : (s.setPpu p).iflag = s.iflag := rfl
@[simp] theorem State.setPpu_ppu (p : Ppu) : (s.setPpu p).ppu = p := rfl
@[simp] theorem State.setPpu_mem (p : Ppu) : (s.setPpu p).mem = s.mem := rfl
@[simp] theorem State.setPpu_fb (p : Ppu) : (s.setPpu p).fb = s.fb := rfl
@[simp] theorem State.setPpu_frames (p : Ppu) : (s.setPpu p).frames = s.frames := rfl
@[simp] theorem State.setPpu_fault (p : Ppu) : (s.setPpu p).fault = s.fault := rfl
@[simp] theorem State.setPpu_cycles (p : Ppu) : (s.setPpu p).cycles = s.cycles := rfl
@[simp] theorem State.setPpu_cfg (p : Ppu) : (s.setPpu p).cfg = s.cfg := rfl

@[simp] theorem State.setIe_regs (v : Byte) : (s.setIe v).regs = s.regs := rfl
@[simp] theorem State.setIe_ime (v : Byte) : (s.setIe v).ime = s.ime := rfl
@[simp] theorem State.setIe_halted (v : Byte) : (s.setIe v).halted = s.halted := rfl
@[simp] theorem State.setIe_ie (v : Byte) : (s.setIe v).ie = v := rfl
@[simp] theorem State.setIe_iflag (v : Byte) : (s.setIe v).iflag = s.iflag := rfl
@[simp] theorem State.setIe_ppu (v : Byte) : (s.setIe v).ppu = s.ppu := rfl
@[simp] theorem State.setIe_mem (v : Byte) : (s.setIe v).mem = s.mem := rfl
@[simp] theorem State.setIe_fb (v : Byte) : (s.setIe v).fb = s.fb := rfl
@[simp] theorem State.setIe_frames (v : Byte) : (s.setIe v).frames = s.frames := rfl
@[simp] theorem State.setIe_fault (v : Byte) : (s.setIe v).fault = s.fault := rfl
@[simp] theorem State.setIe_cycles (v : Byte) : (s.setIe v).cycles = s.cycles := rfl
@[simp] theorem State.setIe_cfg (v : Byte) : (s.setIe v).cfg = s.cfg := rfl

@[simp] theorem State.setIflag_regs (v : Byte) : (s.setIflag v).regs = s.regs := rfl
@[simp] theorem State.setIflag_ime (v : Byte) : (s.setIflag v).ime = s.ime := rfl
@[simp] theorem State.setIflag_halted (v : Byte) : (s.setIflag v).halted = s.halted := rfl
@[simp] theorem State.setIflag_ie (v : Byte) : (s.setIflag v).ie = s.ie := rfl
@[simp] theorem State.setIflag_iflag (v : Byte) : (s.setIflag v).iflag = v := rfl
@[simp] theorem State.setIflag_ppu (v : Byte) : (s.setIflag v).ppu = s.ppu := rfl
@[simp] theorem State.setIflag_mem (v : Byte) : (s.setIflag v).mem = s.mem := rfl
@[simp] theorem State.setIflag_fb (v : Byte) : (s.setIflag v).fb = s.fb := rfl
@[simp] theorem State.setIflag_frames (v : Byte) : (s.setIflag v).frames = s.frames := rfl
@[simp] theorem State.setIflag_fault (v : Byte) : (s.setIflag v).fault = s.fault := rfl
@[simp] theorem State.setIflag_cycles (v : Byte) : (s.setIflag v).cycles = s.cycles := rfl
@[simp] theorem State.setIflag_cfg (v : Byte) : (s.setIflag v).cfg = s.cfg := rfl

@[simp] theorem State.setCycles_regs (n : Nat) : (s.setCycles n).regs = s.regs := rfl
@[simp] theorem State.setCycles_ime (n : Nat) : (s.setCycles n).ime = s.ime := rfl
@[simp] theorem State.setCycles_halted (n : Nat) : (s.setCycles n).halted = s.halted := rfl
@[simp] theorem State.setCycles_ie (n : Nat) : (s.setCycles n).ie = s.ie := rfl
@[simp] theorem State.setCycles_iflag (n : Nat) : (s.setCycles n).iflag = s.iflag := rfl
@[simp] theorem State.setCycles_ppu (n : Nat) : (s.setCycles n).ppu = s.ppu := rfl
@[simp] theorem State.setCycles_mem (n : Nat) : (s.setCycles n).mem = s.mem := rfl
@[simp] theorem State.setCycles_fb (n : Nat) : (s.setCycles n).fb = s.fb := rfl
@[simp] theorem State.setCycles_frames (n : Nat) : (s.setCycles n).frames = s.frames := rfl
@[simp] theorem State.setCycles_fault (n : Nat) : (s.setCycles n).fault = s.fault := rfl
@[simp] theorem State.setCycles_cycles (n : Nat) : (s.setCycles n).cycles = n := rfl
@[simp] theorem State.setCycles_cfg (n : Nat) : (s.setCycles n).cfg = s.cfg := rfl

@[simp] theorem State.charge_regs (op : Byte) : (s.charge op).regs = s.regs := rfl
@[simp] theorem State.charge_ime (op : Byte) : (s.charge op).ime = s.ime := rfl
@[simp] theorem State.charge_halted (op : Byte) : (s.charge op).halted = s.halted := rfl
@[simp] theorem State.charge_ie (op : Byte) : (s.charge op).ie = s.ie := rfl
@[simp] theorem State.charge_iflag (op : Byte) : (s.charge op).iflag = s.iflag := rfl
@[simp] theorem State.charge_ppu (op : Byte) : (s.charge op).ppu = s.ppu := rfl
@[simp] theorem State.charge_mem (op : Byte) : (s.charge op).mem = s.mem := rfl
@[simp] theorem State.charge_fb (op : Byte) : (s.charge op).fb = s.fb := rfl
@[simp] theorem State.charge_frames (op : Byte) : (s.charge op).frames = s.frames := rfl
@[simp] theorem State.charge_fault (op : Byte) : (s.charge op).fault = s.fault := rfl
@[simp] theorem State.charge_cycles (op : Byte) : (s.charge op).cycles = cycleCost s.cfg op true := rfl
@[simp] theorem State.charge_cfg (op : Byte) : (s.charge op).cfg = s.cfg := rfl

@[simp] theorem State.chargeNotTaken_regs (op : Byte) : (s.chargeNotTaken op).regs = s.regs := rfl
@[simp] theorem State.chargeNotTaken_ime (op : Byte) : (s.chargeNotTaken op).ime = s.ime := rfl
@[simp] theorem State.chargeNotTaken_halted (op : Byte) : (s.chargeNotTaken op).halted = s.halted := rfl
@[simp] theorem State.chargeNotTaken_ie (op : Byte) : (s.chargeNotTaken op).ie = s.ie := rfl
@[simp] theorem State.chargeNotTaken_iflag (op : Byte) : (s.chargeNotTaken op).iflag = s.iflag := rfl
@[simp] theorem State.chargeNotTaken_ppu (op : Byte) : (s.chargeNotTaken op).ppu = s.ppu := rfl
@[simp] theorem State.chargeNotTaken_mem (op : Byte) : (s.chargeNotTaken op).mem = s.mem := rfl
@[simp] theorem State.chargeNotTaken_fb (op : Byte) : (s.chargeNotTaken op).fb = s.fb := rfl
@[simp] theorem State.chargeNotTaken_frames (op : Byte) : (s.chargeNotTaken op).frames = s.frames := rfl
@[simp] theorem State.chargeNotTaken_fault (op : Byte) : (s.chargeNotTaken op).fault = s.fault := rfl
@[simp] theorem State.chargeNotTaken_cycles (op : Byte) : (s.chargeNotTaken op).cycles = cycleCost s.cfg op false := rfl
@[simp] theorem State.chargeNotTaken_cfg (op : Byte) : (s.chargeNotTaken op).cfg = s.cfg := rfl

/-! ### The register file -/

@[simp] theorem State.reg_mk (r : Reg8) : s.reg r = s.regs.get r := rfl
@[simp] theorem State.sp_mk : s.sp = s.regs.sp := rfl
@[simp] theorem State.pc_mk : s.pc = s.regs.pc := rfl
@[simp] theorem State.pair_mk (p : Pair) : s.pair p = s.regs.getPair p := rfl
@[simp] theorem State.stackPair_mk (p : StackPair) : s.stackPair p = s.regs.getStackPair p := rfl
@[simp] theorem State.hl_mk : s.hl = s.regs.getPair .hl := rfl
@[simp] theorem State.flags_mk : s.flags = Flags.unpack s.regs.f := rfl

variable (g : Regs)

@[simp] theorem Regs.get_set (r q : Reg8) (v : Byte) : (g.set r v).get q = if r = q then v else g.get q := by
  cases r <;> cases q <;> rfl
@[simp] theorem Regs.set_f (r : Reg8) (v : Byte) : (g.set r v).f = g.f := by cases r <;> rfl
@[simp] theorem Regs.set_sp (r : Reg8) (v : Byte) : (g.set r v).sp = g.sp := by cases r <;> rfl
@[simp] theorem Regs.set_pc (r : Reg8) (v : Byte) : (g.set r v).pc = g.pc := by cases r <;> rfl
@[simp] theorem Regs.setPair_f (p : Pair) (v : Word) : (g.setPair p v).f = g.f := by cases p <;> rfl
@[simp] theorem Regs.setPair_pc (p : Pair) (v : Word) : (g.setPair p v).pc = g.pc := by cases p <;> rfl
@[simp] theorem Regs.setPair_a (p : Pair) (v : Word) : (g.setPair p v).a = g.a := by cases p <;> rfl
@[simp] theorem Regs.setStackPair_pc (p : StackPair) (v : Word) : (g.setStackPair p v).pc = g.pc := by cases p <;> rfl
@[simp] theorem Regs.setStackPair_sp (p : StackPair) (v : Word) : (g.setStackPair p v).sp = g.sp := by cases p <;> rfl

theorem lowByte_toNat (v : Word) : (lowByte v).toNat = v.toNat % 256 := by simp [lowByte]
theorem highByte_toNat (v : Word) : (highByte v).toNat = v.toNat / 256 := by
  simp [highByte, Nat.shiftRight_eq_div_pow]
  omega
theorem joinBytes_toNat (hi lo : Byte) : (joinBytes hi lo).toNat = hi.toNat * 256 + lo.toNat := by
  simp [joinBytes]
  omega

/-- The two halves of a word put together again are the word (R23, R58). -/
@[simp] theorem joinBytes_high_low (v : Word) : joinBytes (highByte v) (lowByte v) = v := by
  apply BitVec.eq_of_toNat_eq
  rw [joinBytes_toNat, highByte_toNat, lowByte_toNat]
  omega
@[simp] theorem lowByte_joinBytes (hi lo : Byte) : lowByte (joinBytes hi lo) = lo := by
  apply BitVec.eq_of_toNat_eq
  rw [lowByte_toNat, joinBytes_toNat]
  omega
@[simp] theorem highByte_joinBytes (hi lo : Byte) : highByte (joinBytes hi lo) = hi := by
  apply BitVec.eq_of_toNat_eq
  rw [highByte_toNat, joinBytes_toNat]
  omega

@[simp] theorem Regs.getPair_setPair (p : Pair) (v : Word) : (g.setPair p v).getPair p = v := by
  cases p <;> simp [Regs.getPair, Regs.setPair]

/-- What POP writes PUSH reads back, but for AF, whose low nibble is cleared (R24). -/
theorem Regs.getStackPair_setStackPair (p : StackPair) (v : Word) (h : p ≠ .af) :
    (g.setStackPair p v).getStackPair p = v := by
  cases p <;> simp_all [Regs.getStackPair, Regs.setStackPair]

/-- Flags written and read back (R25). -/
@[simp] theorem Flags.unpack_pack (x : Flags) : Flags.unpack x.pack = x := by
  rcases x with ⟨_ | _, _ | _, _ | _, _ | _⟩ <;> rfl

/-- Every write of the flags leaves F[3:0] zero (R25). -/
@[simp] theorem Flags.pack_low (x : Flags) : x.pack &&& 0x0F#8 = 0#8 := by
  rcases x with ⟨_ | _, _ | _, _ | _, _ | _⟩ <;> rfl

/-- The numeric value of packed flags (R25). -/
theorem Flags.pack_toNat (x : Flags) :
    x.pack.toNat = 128 * x.z.toNat + 64 * x.n.toNat + 32 * x.h.toNat + 16 * x.c.toNat := by
  rcases x with ⟨_ | _, _ | _, _ | _, _ | _⟩ <;> rfl

end Sys2Proof.Machine
end

