-- ==== Sys2Proof/Laws/Bus.lean ====
section
/-! SUPPORT. The laws of the bus: the address map as a chain of comparisons, what a byte or word write does and leaves
alone, when each answers. Later proofs cite these and never unfold the bus. -/

namespace Sys2Proof.Machine

/-- The address map (R59): the twelve regions of the 16-bit space with their owners. -/
theorem owner_cases (cfg : Config) (a : Word) :
    (a.toNat < 0x8000 ∧ owner cfg a = some .rom) ∨ (0x8000 ≤ a.toNat ∧ a.toNat < 0xA000 ∧ owner cfg a = some .vram) ∨
    (0xA000 ≤ a.toNat ∧ a.toNat < 0xC000 ∧ owner cfg a = none) ∨
    (0xC000 ≤ a.toNat ∧ a.toNat < 0xE000 ∧ owner cfg a = some .wram) ∨
    (0xE000 ≤ a.toNat ∧ a.toNat < 0xFE00 ∧ owner cfg a = none) ∨
    (0xFE00 ≤ a.toNat ∧ a.toNat < 0xFEA0 ∧ owner cfg a = some .ppu) ∨
    (0xFEA0 ≤ a.toNat ∧ a.toNat < 0xFF0F ∧ owner cfg a = none) ∨ (a.toNat = 0xFF0F ∧ owner cfg a = some .interrupt) ∨
    (0xFF10 ≤ a.toNat ∧ a.toNat < 0xFF40 ∧ owner cfg a = none) ∨
    (0xFF40 ≤ a.toNat ∧ a.toNat < 0xFF4C ∧ owner cfg a = some .ppu) ∨
    (0xFF4C ≤ a.toNat ∧ a.toNat < 0xFF80 ∧ owner cfg a = none) ∨
    (0xFF80 ≤ a.toNat ∧ a.toNat < 0xFFFF ∧ owner cfg a = if cfg.mapHram then some .hram else none) ∨
    (a.toNat = 0xFFFF ∧ owner cfg a = some .interrupt) := by
  have hlt := a.isLt
  have region : a.toNat < 0x8000 ∨ (0x8000 ≤ a.toNat ∧ a.toNat < 0xA000) ∨ (0xA000 ≤ a.toNat ∧ a.toNat < 0xC000) ∨
    (0xC000 ≤ a.toNat ∧ a.toNat < 0xE000) ∨ (0xE000 ≤ a.toNat ∧ a.toNat < 0xFE00) ∨
    (0xFE00 ≤ a.toNat ∧ a.toNat < 0xFEA0) ∨ (0xFEA0 ≤ a.toNat ∧ a.toNat < 0xFF0F) ∨ a.toNat = 0xFF0F ∨
    (0xFF10 ≤ a.toNat ∧ a.toNat < 0xFF40) ∨ (0xFF40 ≤ a.toNat ∧ a.toNat < 0xFF4C) ∨
    (0xFF4C ≤ a.toNat ∧ a.toNat < 0xFF80) ∨ (0xFF80 ≤ a.toNat ∧ a.toNat < 0xFFFF) ∨ a.toNat = 0xFFFF := by omega
  unfold owner busBindings
  generalize a.toNat = n at *
  clear hlt
  rcases region with h | h | h | h | h | h | h | h | h | h | h | h | h <;> cases cfg.mapHram <;>
    simp only [Bool.false_eq_true, ↓reduceIte, List.append_nil, List.cons_append, List.nil_append, scanBindings] <;>
    (repeat (first | rw [if_pos (by omega)] | rw [if_neg (by omega)])) <;> simp <;> omega

theorem owner_rom {cfg : Config} {a : Word} : owner cfg a = some .rom ↔ a.toNat < 0x8000 := by
  rcases owner_cases cfg a with h | h | h | h | h | h | h | h | h | h | h | h | h <;> simp [h] <;>
    omega

theorem owner_ppu {cfg : Config} {a : Word} (h : owner cfg a = some .ppu) :
    (0xFE00 ≤ a.toNat ∧ a.toNat < 0xFEA0) ∨ (0xFF40 ≤ a.toNat ∧ a.toNat < 0xFF4C) := by
  rcases owner_cases cfg a with c | c | c | c | c | c | c | c | c | c | c | c | c <;> simp [c] at h <;>
    omega

theorem owner_interrupt {cfg : Config} {a : Word} (h : owner cfg a = some .interrupt) : a = 0xFF0F#16 ∨ a = 0xFFFF#16 := by
  rcases owner_cases cfg a with c | c | c | c | c | c | c | c | c | c | c | c | c <;> simp [c] at h
  · exact .inl (BitVec.eq_of_toNat_eq (by simpa using c.1))
  · exact .inr (BitVec.eq_of_toNat_eq (by simpa using c.1))

/-- A device with a single storage range owns addresses of that range only. -/
theorem owner_ge_rom {cfg : Config} {a : Word} {d : Device} (h : owner cfg a = some d) (hd : d ≠ .rom) :
    0x8000 ≤ a.toNat := by
  rcases Nat.lt_or_ge a.toNat 0x8000 with c | c
  · rw [owner_rom.mpr c] at h
    cases h
    exact absurd rfl hd
  · exact c

/-- The twelve addresses of the register block. -/
theorem ppu_register_cases {a : Word} (h : 0xFF40 ≤ a.toNat) (h' : a.toNat < 0xFF4C) :
    a = 0xFF40#16 ∨ a = 0xFF41#16 ∨ a = 0xFF42#16 ∨ a = 0xFF43#16 ∨ a = 0xFF44#16 ∨ a = 0xFF45#16 ∨ a = 0xFF46#16 ∨
    a = 0xFF47#16 ∨ a = 0xFF48#16 ∨ a = 0xFF49#16 ∨ a = 0xFF4A#16 ∨ a = 0xFF4B#16 := by
  simp only [← BitVec.toNat_inj, BitVec.toNat_ofNat]
  omega

/-- A read of the register block after a write of it: STAT and LY as `valueAfterStore` says (R65). -/
theorem Ppu.read_write (p : Ppu) (a b : Word) (v : Byte) (ha : 0xFF40 ≤ a.toNat) (ha' : a.toNat < 0xFF4C)
    (hb : 0xFF40 ≤ b.toNat) (hb' : b.toNat < 0xFF4C) : (p.write a v).read b =
      if b = a then
        (if a = 0xFF41#16 then (v &&& 0xFC#8) ||| ppuMode p.ly p.acc else if a = 0xFF44#16 then p.ly else v)
      else p.read b := by
  rcases ppu_register_cases ha ha' with rfl | rfl | rfl | rfl | rfl | rfl | rfl | rfl | rfl | rfl | rfl | rfl <;>
    rcases ppu_register_cases hb hb' with rfl | rfl | rfl | rfl | rfl | rfl | rfl | rfl | rfl | rfl | rfl | rfl <;>
    simp [Ppu.read, Ppu.write, BitVec.and_assoc]

@[simp] theorem Ppu.write_ly (p : Ppu) (a : Word) (v : Byte) : (p.write a v).ly = p.ly := by
  simp [Ppu.write, apply_ite Ppu.ly]

@[simp] theorem Ppu.write_acc (p : Ppu) (a : Word) (v : Byte) : (p.write a v).acc = p.acc := by
  simp [Ppu.write, apply_ite Ppu.acc]

/-- A write of the register block keeps the stored STAT bits 1:0 zero (R35). -/
theorem Ppu.write_stat (p : Ppu) (a : Word) (v : Byte) (h : p.stat &&& 0x03#8 = 0#8) :
    (p.write a v).stat &&& 0x03#8 = 0#8 := by
  simp only [Ppu.write, apply_ite Ppu.stat, ite_self]
  split
  · exact h
  · split
    · simp [BitVec.and_assoc]
    · exact h

/-- The addresses whose bytes lie in the backing storage and can be written. -/
def StorageAddr (cfg : Config) (a : Word) : Prop :=
  owner cfg a = some .vram ∨ owner cfg a = some .wram ∨ owner cfg a = some .hram ∨
    (owner cfg a = some .ppu ∧ a.toNat < 0xFF40)

/-- A device's read does not look at the processor's registers, nor at any control or output field. -/
theorem deviceRead_congr {s t : State} (d : Device) (a : Word) (hm : t.mem = s.mem) (hp : t.ppu = s.ppu)
    (hi : t.iflag = s.iflag) (he : t.ie = s.ie) (hc : t.cfg = s.cfg) : deviceRead t d a = deviceRead s d a := by
  unfold deviceRead
  rw [hm, hp, hi, he, hc]

theorem readByte_congr {s t : State} (hm : t.mem = s.mem) (hp : t.ppu = s.ppu) (hi : t.iflag = s.iflag)
    (he : t.ie = s.ie) (hc : t.cfg = s.cfg) : MemoryKept s t := by
  intro k a
  unfold readByte
  rw [hc]
  split
  · rfl
  · exact deviceRead_congr _ _ hm hp hi he hc

/-- What a byte write does when it answers: one of four updates. -/
theorem writeByte_cases {s t : State} {a : Word} {v : Byte} (h : writeByte s a v = .ok t) :
    (StorageAddr s.cfg a ∧ t = s.setMem (Memory.write s.mem a.toNat v)) ∨
    (owner s.cfg a = some .ppu ∧ 0xFF40 ≤ a.toNat ∧ a.toNat < 0xFF4C ∧ t = s.setPpu (s.ppu.write a v)) ∨
    (a = 0xFF0F#16 ∧ t = s.setIflag v) ∨ (a = 0xFFFF#16 ∧ t = s.setIe v) := by
  unfold writeByte at h
  split at h
  · cases h
  · rename_i d hd
    unfold deviceWrite at h
    cases d <;> simp only at h
    · cases h
    · cases h
      exact .inl ⟨.inl hd, rfl⟩
    · cases h
      exact .inl ⟨.inr (.inl hd), rfl⟩
    · split at h
      · rename_i ha
        cases h
        exact .inl ⟨.inr (.inr (.inr ⟨hd, ha⟩)), rfl⟩
      · cases h
        have := owner_ppu hd
        exact .inr (.inl ⟨hd, by omega, by omega, rfl⟩)
    · split at h
      · cases h
        exact .inr (.inr (.inl ⟨‹_›, rfl⟩))
      · cases h
        have := owner_interrupt hd
        exact .inr (.inr (.inr ⟨by simp_all, rfl⟩))
    · cases h
      exact .inl ⟨.inr (.inr (.inl hd)), rfl⟩

/-- What a byte write never touches. -/
theorem writeByte_frame {s t : State} {a : Word} {v : Byte} (h : writeByte s a v = .ok t) :
    t.regs = s.regs ∧ t.cycles = s.cycles ∧ StoreKept s t := by
  rcases writeByte_cases h with ⟨-, rfl⟩ | ⟨-, -, -, rfl⟩ | ⟨-, rfl⟩ | ⟨-, rfl⟩ <;>
    refine ⟨?_, ?_, ⟨?_, ?_⟩, ?_, ?_, ?_, ?_, ?_, ?_⟩ <;> simp

theorem readByte_storage {s : State} {a : Word} (k : Access) (h : StorageAddr s.cfg a) :
    readByte k s a = .ok (Memory.read s.mem a.toNat) := by
  unfold readByte
  rcases h with h | h | h | ⟨h, ha⟩ <;> rw [h] <;> simp [deviceRead]
  omega

theorem owner_of_ppu_range {cfg : Config} {a : Word} (h : 0xFF40 ≤ a.toNat) (h' : a.toNat < 0xFF4C) :
    owner cfg a = some .ppu := by
  rcases owner_cases cfg a with c | c | c | c | c | c | c | c | c | c | c | c | c <;> first | exact c.2.2 | omega

theorem owner_if {cfg : Config} : owner cfg 0xFF0F#16 = some .interrupt := by
  rcases owner_cases cfg 0xFF0F#16 with c | c | c | c | c | c | c | c | c | c | c | c | c <;> first | exact c.2 | simp at c

theorem owner_ie {cfg : Config} : owner cfg 0xFFFF#16 = some .interrupt := by
  rcases owner_cases cfg 0xFFFF#16 with c | c | c | c | c | c | c | c | c | c | c | c | c <;> first | exact c.2 | simp at c

/-- No storage address is a mapped register. -/
theorem storageAddr_range {cfg : Config} {a : Word} (h : StorageAddr cfg a) :
    a ≠ 0xFF41#16 ∧ a ≠ 0xFF44#16 := by
  constructor <;> rintro rfl <;> rcases h with h | h | h | ⟨h, h'⟩ <;>
    rw [owner_of_ppu_range (by simp) (by simp)] at h <;> simp at *

theorem readByte_of_owner {k : Access} {s : State} {a : Word} {d : Device} (h : owner s.cfg a = some d) :
    readByte k s a = deviceRead s d a := by simp [readByte, h]

/-- Equal owners and equal device reads are equal bus reads. -/
theorem readByte_eq_of {s t : State} (k : Access) (b : Word) (hc : t.cfg = s.cfg)
    (h : ∀ d, owner s.cfg b = some d → deviceRead t d b = deviceRead s d b) : readByte k t b = readByte k s b := by
  unfold readByte
  rw [hc]
  split
  · rfl
  · exact h _ ‹_›

/-- What a byte write stores, and that every other byte the bus reads stays (R55, R61-R66). -/
theorem writeByte_stored {s t : State} {a : Word} {v : Byte} (h : writeByte s a v = .ok t) : StoredByte s t a v := by
  rcases writeByte_cases h with ⟨hs, rfl⟩ | ⟨hd, h1, h2, rfl⟩ | ⟨rfl, rfl⟩ | ⟨rfl, rfl⟩
  · refine ⟨fun k => ?_, fun k b hb => readByte_eq_of k b rfl fun d hd => ?_⟩
    · rw [readByte_storage k (by simpa using hs)]
      simp [valueAfterStore, storageAddr_range hs]
    · have hb' : b.toNat ≠ a.toNat := fun e => hb (BitVec.eq_of_toNat_eq e)
      have : Memory.read (s.setMem (Memory.write s.mem a.toNat v)).mem b.toNat = Memory.read s.mem b.toNat :=
        Memory.read_write_other _ _ hb'
      cases d <;> simp only [deviceRead, this] <;> rfl
  · refine ⟨fun k => ?_, fun k b hb => readByte_eq_of k b rfl fun d hd => ?_⟩
    · rw [readByte_of_owner (by simpa using hd)]
      simp only [deviceRead, State.setPpu_ppu]
      rw [if_neg (by omega), Ppu.read_write _ _ _ _ h1 h2 h1 h2]
      simp [valueAfterStore]
    · cases d
      case ppu =>
        have := owner_ppu hd
        simp only [deviceRead, State.setPpu_ppu, State.setPpu_mem]
        split
        · rfl
        · rw [Ppu.read_write _ _ _ _ h1 h2 (by omega) (by omega), if_neg hb]
      all_goals rfl
  · refine ⟨fun k => ?_, fun k b hb => readByte_eq_of k b rfl fun d hd => ?_⟩
    · rw [readByte_of_owner owner_if]
      simp [deviceRead, valueAfterStore]
    · cases d
      case interrupt => simp [deviceRead, hb]
      all_goals rfl
  · refine ⟨fun k => ?_, fun k b hb => readByte_eq_of k b rfl fun d hd => ?_⟩
    · rw [readByte_of_owner owner_ie]
      simp [deviceRead, valueAfterStore]
    · cases d
      case interrupt =>
        rcases owner_interrupt hd with rfl | rfl
        · simp [deviceRead]
        · exact absurd rfl hb
      all_goals rfl

/-- A byte write answers at exactly the writable addresses (R52, R68). -/
theorem writeByte_ok {s : State} {a : Word} (v : Byte) (h : Writable s.cfg a) : ∃ t, writeByte s a v = .ok t := by
  obtain ⟨d, hd, hr⟩ := h
  unfold writeByte
  rw [hd]
  cases d <;> simp only [deviceWrite] <;> first | exact absurd rfl hr | exact ⟨_, rfl⟩ | (split <;> exact ⟨_, rfl⟩)

theorem writeByte_unmapped {s : State} {a : Word} (v : Byte) (h : owner s.cfg a = none) :
    writeByte s a v = .error (.busUnmapped a .write) := by simp [writeByte, h]

theorem writeByte_rom {s : State} {a : Word} (v : Byte) (h : owner s.cfg a = some .rom) :
    writeByte s a v = .error (.romWrite a) := by simp [writeByte, h, deviceWrite]

theorem deviceWrite_eq_writeByte {s : State} {d : Device} {a : Word} (v : Byte) (h : owner s.cfg a = some d) :
    deviceWrite s d a v = writeByte s a v := by simp [writeByte, h]

theorem writeByte_cfg {s t : State} {a : Word} {v : Byte} (h : writeByte s a v = .ok t) : t.cfg = s.cfg :=
  (writeByte_frame h).2.2.2.2.2.2.1

/-- A word write is two byte writes into one device, the low byte first (R56). -/
theorem writeWord_cases {s u : State} {a v : Word} (h : writeWord s a v = .ok u) :
    WordWritable s.cfg a ∧ ∃ t, writeByte s a (lowByte v) = .ok t ∧ writeByte t (a + 1#16) (highByte v) = .ok u := by
  unfold writeWord at h
  split at h
  · cases h
  · rename_i d hd
    split at h
    · cases h
    · rename_i t ht
      split at h
      · rename_i hd'
        have ht' : writeByte s a (lowByte v) = .ok t := by rw [← deviceWrite_eq_writeByte _ hd]; exact ht
        have hc := writeByte_cfg ht'
        refine ⟨⟨d, hd, ?_, hd'⟩, t, ht', ?_⟩
        · rintro rfl
          simp [deviceWrite] at ht
        · rw [← deviceWrite_eq_writeByte _ (by rw [hc]; exact hd')]
          exact h
      · cases h

theorem StoreKept.trans {s t u : State} (h : StoreKept s t) (h' : StoreKept t u) : StoreKept s u := by
  obtain ⟨⟨a1, a2⟩, b1, b2, b3, b4, b5, b6⟩ := h
  obtain ⟨⟨c1, c2⟩, d1, d2, d3, d4, d5, d6⟩ := h'
  exact ⟨⟨c1.trans a1, c2.trans a2⟩, d1.trans b1, d2.trans b2, d3.trans b3, d4.trans b4, d5.trans b5, d6.trans b6⟩

theorem add_one_ne (a : Word) : a + 1#16 ≠ a := by
  intro h
  have := congrArg BitVec.toNat h
  simp [BitVec.toNat_add] at this
  omega

/-- What a word write stores and what it leaves alone (R56, R58). -/
theorem writeWord_stored {s u : State} {a v : Word} (h : writeWord s a v = .ok u) :
    u.regs = s.regs ∧ u.cycles = s.cycles ∧ StoreKept s u ∧ StoredWord s u a v := by
  obtain ⟨-, t, ht, hu⟩ := writeWord_cases h
  obtain ⟨r1, c1, k1⟩ := writeByte_frame ht
  obtain ⟨r2, c2, k2⟩ := writeByte_frame hu
  obtain ⟨v1, o1⟩ := writeByte_stored ht
  obtain ⟨v2, o2⟩ := writeByte_stored hu
  have hly : t.ppu.ly = s.ppu.ly := k1.2.2.2.2.2.1
  have hacc : t.ppu.acc = s.ppu.acc := k1.2.2.2.2.2.2
  refine ⟨r2.trans r1, c2.trans c1, k1.trans k2, ?_, ?_, ?_⟩
  · intro k
    rw [o2 k a (add_one_ne a).symm, v1 k]
  · intro k
    rw [v2 k]
    simp [valueAfterStore, hly, hacc]
  · intro k b hb hb'
    rw [o2 k b hb', o1 k b hb]

/-- A word write answers at exactly the word-writable addresses (R56). -/
theorem writeWord_ok {s : State} {a : Word} (v : Word) (h : WordWritable s.cfg a) : ∃ u, writeWord s a v = .ok u := by
  obtain ⟨d, hd, hr, hd'⟩ := h
  obtain ⟨t, ht⟩ := writeByte_ok (s := s) (lowByte v) ⟨d, hd, hr⟩
  have hc := writeByte_cfg ht
  obtain ⟨u, hu⟩ := writeByte_ok (s := t) (a := a + 1#16) (highByte v) ⟨d, by rw [hc]; exact hd', hr⟩
  refine ⟨u, ?_⟩
  rw [← deviceWrite_eq_writeByte _ hd] at ht
  rw [← deviceWrite_eq_writeByte _ (by rw [hc]; exact hd')] at hu
  simp [writeWord, hd, ht, hd', hu]

theorem writeWord_unmapped {s : State} {a : Word} (v : Word) (h : owner s.cfg a = none) :
    writeWord s a v = .error (.busUnmapped a .write) := by simp [writeWord, h]

theorem writeWord_rom {s : State} {a : Word} (v : Word) (h : owner s.cfg a = some .rom) :
    writeWord s a v = .error (.romWrite a) := by simp [writeWord, h, deviceWrite]

theorem writeWord_straddle {s : State} {a : Word} (v : Word) {d : Device} (h : owner s.cfg a = some d) (hr : d ≠ .rom)
    (h' : owner s.cfg (a + 1#16) ≠ some d) : writeWord s a v = .error (.deviceRange (a + 1#16)) := by
  obtain ⟨t, ht⟩ := writeByte_ok (s := s) (lowByte v) ⟨d, h, hr⟩
  rw [← deviceWrite_eq_writeByte _ h] at ht
  simp [writeWord, h, ht, h']

/-- A word read is two byte reads of one device (R54). -/
theorem readWord_of_bytes {k : Access} {s : State} {a : Word} {d : Device} {lo hi : Byte} (h : owner s.cfg a = some d)
    (h' : owner s.cfg (a + 1#16) = some d) (hlo : readByte k s a = .ok lo) (hhi : readByte k s (a + 1#16) = .ok hi) :
    readWord k s a = .ok (joinBytes hi lo) := by
  simp only [readByte, h, h'] at hlo hhi
  simp [readWord, h, hlo, h', hhi]

theorem readWord_congr {s t : State} (hm : t.mem = s.mem) (hp : t.ppu = s.ppu) (hi : t.iflag = s.iflag)
    (he : t.ie = s.ie) (hc : t.cfg = s.cfg) (k : Access) (a : Word) : readWord k t a = readWord k s a := by
  unfold readWord
  rw [hc]
  simp only [deviceRead_congr _ _ hm hp hi he hc]

end Sys2Proof.Machine
end

