-- ==== Sys2Proof/Laws/Exec.lean ====
section
/-! SUPPORT. `exec` of each instruction family is one shared operation, and every family's encoding is that of its field
codes. Later proofs rewrite with these and never unfold `exec`. -/

namespace Sys2Proof.Machine

/-! ### Loads -/

theorem exec_ldRegReg (dst src : Reg8) (s : State) :
    exec (Instr.ldRegReg dst src) s = ldRegReg (Instr.ldRegReg dst src).opcode dst src s := by cases dst <;> cases src <;> rfl

theorem exec_ldRegAtHL (dst : Reg8) (s : State) :
    exec (Instr.ldRegAtHL dst) s = ldRegAt (Instr.ldRegAtHL dst).opcode dst s.hl s := by cases dst <;> rfl

theorem exec_ldAtHLReg (r : Reg8) (s : State) :
    exec (Instr.ldAtHLReg r) s = ldAtReg (Instr.ldAtHLReg r).opcode s.hl r s := by cases r <;> rfl

theorem exec_ldRegImm (dst : Reg8) (n : Byte) (s : State) :
    exec (Instr.ldRegImm dst n) s = ldRegImm (Instr.ldRegImm dst n).opcode dst n s := by cases dst <;> rfl

theorem exec_ldPairImm (p : Pair) (nn : Word) (s : State) :
    exec (Instr.ldPairImm p nn) s = ldPairWord (Instr.ldPairImm p nn).opcode p nn s := by cases p <;> rfl

theorem exec_push (p : StackPair) (s : State) :
    exec (Instr.push p) s = pushPair (Instr.push p).opcode p s := by cases p <;> rfl

theorem exec_pop (p : StackPair) (s : State) :
    exec (Instr.pop p) s = popPair (Instr.pop p).opcode p s := by cases p <;> rfl

/-! ### Arithmetic -/

theorem exec_alu (o : AluOp) (x : AluOperand) (s : State) :
    exec (Instr.alu o x) s = aluOn (Instr.alu o x).opcode o x s := by
  cases x with
  | reg r => cases o <;> cases r <;> rfl
  | atHL => cases o <;> rfl
  | imm n => cases o <;> rfl

theorem exec_incReg (r : Reg8) (s : State) :
    exec (Instr.incReg r) s = stepReg (Instr.incReg r).opcode inc8 r s := by cases r <;> rfl

theorem exec_decReg (r : Reg8) (s : State) :
    exec (Instr.decReg r) s = stepReg (Instr.decReg r).opcode dec8 r s := by cases r <;> rfl

theorem exec_incPair (p : Pair) (s : State) :
    exec (Instr.incPair p) s = ldPairWord (Instr.incPair p).opcode p (s.pair p + 1#16) s := by cases p <;> rfl

theorem exec_decPair (p : Pair) (s : State) :
    exec (Instr.decPair p) s = ldPairWord (Instr.decPair p).opcode p (s.pair p - 1#16) s := by cases p <;> rfl

theorem exec_addHLPair (p : Pair) (s : State) :
    exec (Instr.addHLPair p) s = addHL (Instr.addHLPair p).opcode (s.pair p) s := by cases p <;> rfl

/-! ### Control transfers -/

theorem exec_jrCond (cc : Cond) (e : Byte) (s : State) : exec (Instr.jrCond cc e) s =
    ifCond (Instr.jrCond cc e).opcode cc (jumpTo (Instr.jrCond cc e).opcode (relativeTarget s e) s) s := by
  cases cc <;> rfl

theorem exec_jpCond (cc : Cond) (nn : Word) (s : State) : exec (Instr.jpCond cc nn) s =
    ifCond (Instr.jpCond cc nn).opcode cc (jumpTo (Instr.jpCond cc nn).opcode nn s) s := by cases cc <;> rfl

theorem exec_callCond (cc : Cond) (nn : Word) (s : State) : exec (Instr.callCond cc nn) s =
    ifCond (Instr.callCond cc nn).opcode cc (callTo (Instr.callCond cc nn).opcode nn s) s := by cases cc <;> rfl

theorem exec_retCond (cc : Cond) (s : State) : exec (Instr.retCond cc) s =
    ifCond (Instr.retCond cc).opcode cc (popPC (Instr.retCond cc).opcode s) s := by cases cc <;> rfl

theorem exec_rst (y : Fin 8) (s : State) :
    exec (Instr.rst y) s = callTo (Instr.rst y).opcode (BitVec.ofNat 16 (8 * y.val)) s := by
  match y with
  | 0 | 1 | 2 | 3 | 4 | 5 | 6 | 7 => rfl

/-! ### Encodings -/

theorem encodes_ldRegReg (dst src : Reg8) : Encodes (Instr.ldRegReg dst src) (0x40 + 8 * dst.code + src.code) 1 4 4 := by
  cases dst <;> cases src <;> exact ⟨rfl, rfl, rfl, rfl, rfl⟩

theorem encodes_ldRegAtHL (dst : Reg8) : Encodes (Instr.ldRegAtHL dst) (0x46 + 8 * dst.code) 1 8 8 := by
  cases dst <;> exact ⟨rfl, rfl, rfl, rfl, rfl⟩

theorem encodes_ldAtHLReg (r : Reg8) : Encodes (Instr.ldAtHLReg r) (0x70 + r.code) 1 8 8 := by
  cases r <;> exact ⟨rfl, rfl, rfl, rfl, rfl⟩

theorem encodes_ldRegImm (dst : Reg8) (n : Byte) : Encodes (Instr.ldRegImm dst n) (0x06 + 8 * dst.code) 2 8 8 := by
  cases dst <;> exact ⟨rfl, rfl, rfl, rfl, rfl⟩

theorem encodes_ldPairImm (p : Pair) (nn : Word) : Encodes (Instr.ldPairImm p nn) (0x01 + 16 * p.code) 3 12 12 := by
  cases p <;> exact ⟨rfl, rfl, rfl, rfl, rfl⟩

theorem encodes_push (p : StackPair) : Encodes (Instr.push p) (0xC5 + 16 * p.code) 1 16 16 := by
  cases p <;> exact ⟨rfl, rfl, rfl, rfl, rfl⟩

theorem encodes_pop (p : StackPair) : Encodes (Instr.pop p) (0xC1 + 16 * p.code) 1 12 12 := by
  cases p <;> exact ⟨rfl, rfl, rfl, rfl, rfl⟩

theorem encodes_aluReg (o : AluOp) (r : Reg8) : Encodes (Instr.aluReg o r) (0x80 + 8 * o.code + r.code) 1 4 4 := by
  cases o <;> cases r <;> exact ⟨rfl, rfl, rfl, rfl, rfl⟩

theorem encodes_aluAtHL (o : AluOp) : Encodes (Instr.aluAtHL o) (0x86 + 8 * o.code) 1 8 8 := by
  cases o <;> exact ⟨rfl, rfl, rfl, rfl, rfl⟩

theorem encodes_aluImm (o : AluOp) (n : Byte) : Encodes (Instr.aluImm o n) (0xC6 + 8 * o.code) 2 8 8 := by
  cases o <;> exact ⟨rfl, rfl, rfl, rfl, rfl⟩

theorem encodes_incReg (r : Reg8) : Encodes (Instr.incReg r) (0x04 + 8 * r.code) 1 4 4 := by
  cases r <;> exact ⟨rfl, rfl, rfl, rfl, rfl⟩

theorem encodes_decReg (r : Reg8) : Encodes (Instr.decReg r) (0x05 + 8 * r.code) 1 4 4 := by
  cases r <;> exact ⟨rfl, rfl, rfl, rfl, rfl⟩

theorem encodes_incPair (p : Pair) : Encodes (Instr.incPair p) (0x03 + 16 * p.code) 1 8 8 := by
  cases p <;> exact ⟨rfl, rfl, rfl, rfl, rfl⟩

theorem encodes_decPair (p : Pair) : Encodes (Instr.decPair p) (0x0B + 16 * p.code) 1 8 8 := by
  cases p <;> exact ⟨rfl, rfl, rfl, rfl, rfl⟩

theorem encodes_addHLPair (p : Pair) : Encodes (Instr.addHLPair p) (0x09 + 16 * p.code) 1 8 8 := by
  cases p <;> exact ⟨rfl, rfl, rfl, rfl, rfl⟩

theorem encodes_jrCond (cc : Cond) (e : Byte) : Encodes (Instr.jrCond cc e) (0x20 + 8 * cc.code) 2 12 8 := by
  cases cc <;> exact ⟨rfl, rfl, rfl, rfl, rfl⟩

theorem encodes_jpCond (cc : Cond) (nn : Word) : Encodes (Instr.jpCond cc nn) (0xC2 + 8 * cc.code) 3 16 12 := by
  cases cc <;> exact ⟨rfl, rfl, rfl, rfl, rfl⟩

theorem encodes_callCond (cc : Cond) (nn : Word) : Encodes (Instr.callCond cc nn) (0xC4 + 8 * cc.code) 3 24 12 := by
  cases cc <;> exact ⟨rfl, rfl, rfl, rfl, rfl⟩

theorem encodes_retCond (cc : Cond) : Encodes (Instr.retCond cc) (0xC0 + 8 * cc.code) 1 20 8 := by
  cases cc <;> exact ⟨rfl, rfl, rfl, rfl, rfl⟩

theorem encodes_rst (y : Fin 8) : Encodes (Instr.rst y) (0xC7 + 8 * y.val) 1 16 16 := by
  match y with
  | 0 | 1 | 2 | 3 | 4 | 5 | 6 | 7 => exact ⟨rfl, rfl, rfl, rfl, rfl⟩

end Sys2Proof.Machine
end

