-- ==== Sys2Proof/Laws/Frame.lean ====
section
/-! SUPPORT. The frames of the statements, from the shape of a result: what a form that writes registers only leaves
alone, and how a store's frame survives a later register write. -/

namespace Sys2Proof.Machine

/-- A result that differs in the processor's registers and the cycle count only. -/
theorem machineKept_of_eq {s t : State} (h : t = { s with regs := t.regs, cycles := t.cycles }) : MachineKept s t := by
  rw [h]
  exact ⟨⟨rfl, rfl⟩, ⟨rfl, rfl, rfl⟩, ⟨rfl, rfl, rfl, rfl, rfl, rfl⟩, fun _ _ => rfl⟩

theorem regsKept_setReg (s : State) (r : Reg8) (v : Byte) {t : State} (h : t.regs.get = (s.regs.set r v).get) :
    RegsKept s t [r] := by
  intro q hq
  simp only [List.mem_singleton] at hq
  simp [State.reg, h, Ne.symm hq]

/-- A pair write changes its halves only. -/
theorem regsKept_setPair (s : State) (p : Pair) (v : Word) {t : State} (h : t.regs.get = (s.regs.setPair p v).get) :
    RegsKept s t (pairHalves p) := by
  intro q hq
  simp only [State.reg, h]
  cases p <;> cases q <;> simp_all [pairHalves, Regs.get, Regs.setPair]

theorem regsKept_setStackPair (s : State) (p : StackPair) (v : Word) {t : State}
    (h : t.regs.get = (s.regs.setStackPair p v).get) : RegsKept s t (stackPairHalves p) := by
  intro q hq
  simp only [State.reg, h]
  cases p <;> cases q <;> simp_all [stackPairHalves, Regs.get, Regs.setStackPair]

/-- Writing the flags writes exactly the four bits (R25). -/
theorem flagsAre_of_pack {t : State} {x : Flags} (h : t.regs.f = x.pack) : FlagsAre t x.z x.n x.h x.c := by
  unfold FlagsAre
  rw [h, Flags.pack_toNat]

/-- A byte stored stays stored under a later write of registers and count. -/
theorem StoredByte.of_eq {s t u : State} {a : Word} {v : Byte} (h : StoredByte s t a v)
    (hu : u = { t with regs := u.regs, cycles := u.cycles }) : StoredByte s u a v := by
  rw [hu]
  exact h

theorem StoredWord.of_eq {s t u : State} {a v : Word} (h : StoredWord s t a v)
    (hu : u = { t with regs := u.regs, cycles := u.cycles }) : StoredWord s u a v := by
  rw [hu]
  exact h

theorem StoreKept.of_eq {s t u : State} (h : StoreKept s t) (hu : u = { t with regs := u.regs, cycles := u.cycles }) :
    StoreKept s u := by
  rw [hu]
  exact h

/-- A store does not look at the processor's registers. -/
theorem StoredByte.congr_left {s s' t : State} {a : Word} {v : Byte} (h : StoredByte s' t a v)
    (hs : s' = { s with regs := s'.regs, cycles := s'.cycles }) : StoredByte s t a v := by
  rw [hs] at h
  exact h

theorem StoredWord.congr_left {s s' t : State} {a v : Word} (h : StoredWord s' t a v)
    (hs : s' = { s with regs := s'.regs, cycles := s'.cycles }) : StoredWord s t a v := by
  rw [hs] at h
  exact h

theorem StoreKept.congr_left {s s' t : State} (h : StoreKept s' t)
    (hs : s' = { s with regs := s'.regs, cycles := s'.cycles }) : StoreKept s t := by
  rw [hs] at h
  exact h

end Sys2Proof.Machine
end

