-- ==== Sys2Proof/Laws/Alu.lean ====
section
/-! SUPPORT. The flag computations as numbers: the adder and the subtractor (R151, R152), INC and DEC, the rotates and the
masked low byte of AF. -/

namespace Sys2Proof.Machine

theorem byte_eq_zero (n : Nat) : (BitVec.ofNat 8 n == 0#8) = decide (n % 256 = 0) := by
  rw [Bool.eq_iff_iff]
  simp [← BitVec.toNat_inj]

theorem byte_beq_zero (v : Byte) : (v == 0#8) = decide (v.toNat = 0) := by
  rw [Bool.eq_iff_iff]
  simp [← BitVec.toNat_inj]

/-- The adder (R151). -/
theorem add8_eq (a b : Byte) (c : Bool) :
    let sum := a.toNat + b.toNat + c.toNat
    add8 a b c = ⟨BitVec.ofNat 8 sum, ⟨decide (sum % 256 = 0), false, decide (a.toNat % 16 + b.toNat % 16 + c.toNat > 15),
      decide (sum > 255)⟩⟩ := by
  simp only [add8, byte_eq_zero]

/-- The subtractor (R152). -/
theorem sub8_eq (a b : Byte) (c : Bool) :
    let result := a.toNat + 512 - b.toNat - c.toNat
    sub8 a b c = ⟨BitVec.ofNat 8 result, ⟨decide (result % 256 = 0), true, decide (a.toNat % 16 < b.toNat % 16 + c.toNat),
      decide (a.toNat < b.toNat + c.toNat)⟩⟩ := by
  have hv : BitVec.ofInt 8 ((a.toNat : Int) - b.toNat - c.toNat) = BitVec.ofNat 8 (a.toNat + 512 - b.toNat - c.toNat) := by
    apply BitVec.eq_of_toNat_eq
    have := a.isLt
    have := b.isLt
    have : c.toNat ≤ 1 := by cases c <;> simp
    simp only [BitVec.toNat_ofInt, BitVec.toNat_ofNat]
    omega
  simp only [sub8, hv, byte_eq_zero]

/-- INC (R161). -/
theorem inc8_eq (v : Byte) (x : Flags) :
    inc8 v x = ⟨v + 1#8, ⟨decide ((v.toNat + 1) % 256 = 0), false, decide (v.toNat % 16 + 1 > 15), x.c⟩⟩ := by
  have hv : BitVec.ofNat 8 (v.toNat + 1) = v + 1#8 := by
    apply BitVec.eq_of_toNat_eq
    simp [BitVec.toNat_add]
  simp [inc8, add8_eq, hv]

/-- DEC (R163). -/
theorem dec8_eq (v : Byte) (x : Flags) :
    dec8 v x = ⟨v - 1#8, ⟨decide ((v.toNat + 255) % 256 = 0), true, decide (v.toNat % 16 < 1), x.c⟩⟩ := by
  have hv : BitVec.ofNat 8 (v.toNat + 511) = v - 1#8 := by
    apply BitVec.eq_of_toNat_eq
    simp [BitVec.toNat_sub]
    omega
  have hz : (v.toNat + 511) % 256 = (v.toNat + 255) % 256 := by omega
  simp [dec8, sub8_eq, hv, hz]

/-- Equal flags, equal statements about F. -/
theorem FlagsAre.congr {t : State} {z n h c z' n' h' c' : Bool} (x : FlagsAre t z n h c) (hz : z = z') (hn : n = n')
    (hh : h = h') (hc : c = c') : FlagsAre t z' n' h' c' := by
  subst hz hn hh hc
  exact x

/-- What POP AF writes PUSH AF reads back: the word with bits 3:0 zero (R24, R25). -/
theorem join_masked (v : Word) : joinBytes (highByte v) (lowByte v &&& 0xF0#8) = v &&& 0xFFF0#16 := by
  have hv : v &&& 0xFFF0#16 = (v >>> 4) <<< 4 := by
    ext i hi
    rcases i with _ | _ | _ | _ | _ | _ | _ | _ | _ | _ | _ | _ | _ | _ | _ | _ | i <;>
      first | omega | simp
  have hb : ∀ b : Byte, (b &&& 0xF0#8).toNat = b.toNat / 16 * 16 := by decide
  apply BitVec.eq_of_toNat_eq
  rw [joinBytes_toNat, highByte_toNat, hb, lowByte_toNat, hv]
  have := v.isLt
  simp [Nat.shiftRight_eq_div_pow, Nat.shiftLeft_eq]
  omega

/-- The rotates as numbers (R165-R168). -/
theorem rotate_values (a : Byte) (c : Bool) :
    (rlc8 a).value.toNat = 2 * a.toNat % 256 + a.toNat / 128 ∧ (rrc8 a).value.toNat = a.toNat / 2 + 128 * (a.toNat % 2) ∧
    (rl8 a c).value.toNat = 2 * a.toNat % 256 + c.toNat ∧ (rr8 a c).value.toNat = a.toNat / 2 + 128 * c.toNat ∧
    a.getLsbD 7 = decide (128 ≤ a.toNat) ∧ a.getLsbD 0 = decide (a.toNat % 2 = 1) := by
  revert a c
  decide

/-- DAA as numbers (R169): what is added after an add, subtracted after a subtract. -/
theorem daa8_eq (a : Byte) (x : Flags) :
    let high := x.c || (!x.n && decide (a.toNat > 0x99))
    let low := x.h || (!x.n && decide (a.toNat % 16 > 9))
    let adjust := (if high then 0x60 else 0) + (if low then 0x06 else 0)
    let result := if x.n then (a.toNat + 512 - adjust) % 256 else (a.toNat + adjust) % 256
    (daa8 a x).value.toNat = result ∧ (daa8 a x).flags = ⟨decide (result = 0), x.n, false, high⟩ := by
  obtain ⟨z, n, h, c⟩ := x
  intro high low adjust result
  have value : (daa8 a ⟨z, n, h, c⟩).value.toNat = result := by
    have low_digit : (a.toNat + 96) % 16 = a.toNat % 16 := by omega
    cases n <;> cases h <;> cases c <;> by_cases ha : 153 < a.toNat <;> by_cases hl : 9 < a.toNat % 16 <;>
      simp [daa8, daaHigh, daaLow, result, adjust, high, low, low_digit, ha, hl] <;> omega
  refine ⟨value, ?_⟩
  rw [← value, ← byte_beq_zero]
  cases n <;> cases c <;> by_cases ha : 153 < a.toNat <;> simp [daa8, daaHigh, high, ha]

end Sys2Proof.Machine
end

