-- ==== Sys2Proof/Laws/Decode.lean ====
section
/-! SUPPORT. The laws of the decoder: the table row of every instruction, and that it is the row of its opcode. -/

namespace Sys2Proof

/-- The row of an instruction's opcode and its bytes, by its length (R106). -/
def RowOf (i : Instr) : Prop :=
  (lookupRow i.opcode = some (.op0 i) ∧ encode i = [i.opcode]) ∨
  (∃ mk n, lookupRow i.opcode = some (.op8 mk) ∧ encode i = [i.opcode, n] ∧ mk n = i) ∨
  (∃ mk nn, lookupRow i.opcode = some (.op16 mk) ∧ encode i = [i.opcode, lowByte nn, highByte nn] ∧ mk nn = i)

/-- Every instruction is in the table, at its opcode. -/
theorem rowOf (i : Instr) : RowOf i := by
  cases i <;> first
    | exact .inl ⟨rfl, rfl⟩
    | exact .inr (.inl ⟨_, _, rfl, rfl, rfl⟩)
    | exact .inr (.inr ⟨_, _, rfl, rfl, rfl⟩)

/-- What a row must be to stand at an opcode byte: its instructions are encoded with that byte first. -/
def RowEncodes (op : Byte) : Row → Prop
  | .op0 i => encode i = [op]
  | .op8 mk => ∀ n, encode (mk n) = [op, n]
  | .op16 mk => ∀ nn, encode (mk nn) = [op, lowByte nn, highByte nn]

/-- The rows of a list stand at consecutive opcode bytes. -/
def RowsEncode : List Row → Nat → Prop
  | [], _ => True
  | r :: rs, k => RowEncodes (BitVec.ofNat 8 k) r ∧ RowsEncode rs (k + 1)

theorem RowsEncode.append {xs ys : List Row} {k : Nat} (h : RowsEncode xs k) (h' : RowsEncode ys (k + xs.length)) :
    RowsEncode (xs ++ ys) k := by
  induction xs generalizing k with
  | nil => exact h'
  | cons x xs ih =>
    refine ⟨h.1, ih h.2 ?_⟩
    have : k + 1 + xs.length = k + (x :: xs).length := by simp; omega
    rwa [this]

theorem RowsEncode.get {xs : List Row} {k n : Nat} (h : RowsEncode xs k) {r : Row} (hr : xs[n]? = some r) :
    RowEncodes (BitVec.ofNat 8 (k + n)) r := by
  induction xs generalizing k n with
  | nil => simp at hr
  | cons x xs ih =>
    cases n with
    | zero =>
      simp only [List.getElem?_cons_zero, Option.some.injEq] at hr
      exact hr ▸ h.1
    | succ n =>
      have := ih h.2 (n := n) (by simpa using hr)
      rwa [show k + 1 + n = k + (n + 1) by omega] at this

/-- Every row of the map has sixteen opcodes. -/
theorem opcodeRow_lengths :
    opcodeRow0.length = 16 ∧ opcodeRow1.length = 16 ∧ opcodeRow2.length = 16 ∧ opcodeRow3.length = 16 ∧ opcodeRow4.length = 16 ∧ opcodeRow5.length = 16 ∧ opcodeRow6.length = 16 ∧ opcodeRow7.length = 16 ∧
    opcodeRow8.length = 16 ∧ opcodeRow9.length = 16 ∧ opcodeRowA.length = 16 ∧ opcodeRowB.length = 16 ∧ opcodeRowC.length = 16 ∧ opcodeRowD.length = 16 ∧ opcodeRowE.length = 16 ∧ opcodeRowF.length = 16 := by
  refine ⟨rfl, rfl, rfl, rfl, rfl, rfl, rfl, rfl, rfl, rfl, rfl, rfl, rfl, rfl, rfl, rfl⟩

theorem rowsEncode_low : RowsEncode (opcodeRow0 ++ opcodeRow1 ++ opcodeRow2 ++ opcodeRow3) 0 := by
  repeat' (first | exact trivial | apply And.intro | rfl | (intro _; rfl))

theorem rowsEncode_loads : RowsEncode (opcodeRow4 ++ opcodeRow5 ++ opcodeRow6 ++ opcodeRow7) 0x40 := by
  repeat' (first | exact trivial | apply And.intro | rfl)

theorem rowsEncode_alu : RowsEncode (opcodeRow8 ++ opcodeRow9 ++ opcodeRowA ++ opcodeRowB) 0x80 := by
  repeat' (first | exact trivial | apply And.intro | rfl)

theorem rowsEncode_high : RowsEncode (opcodeRowC ++ opcodeRowD ++ opcodeRowE ++ opcodeRowF) 0xC0 := by
  repeat' (first | exact trivial | apply And.intro | rfl | (intro _; rfl))

/-- Every row of the table stands at its opcode byte (R93, R99-R102). -/
theorem rowEncodes {op : Byte} {r : Row} (h : lookupRow op = some r) : RowEncodes op r := by
  have table : RowsEncode opcodeTable 0 := by
    have h1 := rowsEncode_low.append (ys := opcodeRow4 ++ opcodeRow5 ++ opcodeRow6 ++ opcodeRow7) rowsEncode_loads
    have h2 := h1.append (ys := opcodeRow8 ++ opcodeRow9 ++ opcodeRowA ++ opcodeRowB) (by simpa [opcodeRow_lengths] using rowsEncode_alu)
    have h3 := h2.append (ys := opcodeRowC ++ opcodeRowD ++ opcodeRowE ++ opcodeRowF) (by simpa [opcodeRow_lengths] using rowsEncode_high)
    simpa only [opcodeTable, List.append_assoc] using h3
  have := table.get h
  simpa using this

theorem legalOpcode_opcode (i : Instr) : legalOpcode i.opcode = i.wf := by cases i <;> rfl

theorem lookupRow_isSome (op : Byte) : (lookupRow op).isSome = true := by
  have h : opcodeTable.length = 256 := by simp [opcodeTable, opcodeRow_lengths]
  have := op.isLt
  simp [lookupRow, h]
  omega

end Sys2Proof
end

