-- ==== Sys2Proof/Laws/Meanings.lean ====
section
/-! SUPPORT. One lemma per shared operation of the meanings: that it answers, what its result holds, what it leaves alone
and where it faults. The statements about instructions follow from these and the equations of Laws/Exec.lean. -/

namespace Sys2Proof.Machine

/-- A register written and the cost charged. -/
theorem setReg_charge_spec (op : Byte) (r : Reg8) (v : Byte) (s : State) :
    let t := (s.setReg r v).charge op
    t.reg r = v ∧ RegsKept s t [r] ∧ FlagsKept s t ∧ PointersKept s t ∧ MachineKept s t ∧
      t.cycles = cycleCost s.cfg op true :=
  ⟨by simp [State.reg, State.charge], regsKept_setReg s r v rfl, by simp [FlagsKept, State.charge],
    by simp [PointersKept, State.sp, State.pc, State.charge], machineKept_of_eq rfl, rfl⟩

/-- A register and the flags written and the cost charged. -/
theorem setReg_setFlags_spec (op : Byte) (r : Reg8) (v : Byte) (x : Flags) (s : State) :
    let t := ((s.setReg r v).setFlags x).charge op
    t.reg r = v ∧ FlagsAre t x.z x.n x.h x.c ∧ RegsKept s t [r] ∧ PointersKept s t ∧ MachineKept s t ∧
      t.cycles = cycleCost s.cfg op true := by
  refine ⟨?_, flagsAre_of_pack (by simp [State.charge]), regsKept_setReg s r v ?_, ?_, machineKept_of_eq rfl, rfl⟩
  · cases r <;> rfl
  · funext q
    cases q <;> rfl
  · simp [PointersKept, State.sp, State.pc, State.charge]

/-- The flags written and the cost charged. -/
theorem setFlags_charge_spec (op : Byte) (x : Flags) (s : State) :
    let t := (s.setFlags x).charge op
    FlagsAre t x.z x.n x.h x.c ∧ RegsKept s t [] ∧ PointersKept s t ∧ MachineKept s t ∧
      t.cycles = cycleCost s.cfg op true :=
  ⟨flagsAre_of_pack rfl, fun q _ => by cases q <;> rfl, ⟨rfl, rfl⟩, machineKept_of_eq rfl, rfl⟩

/-- A pair written and the cost charged. -/
theorem setPair_charge_spec (op : Byte) (p : Pair) (v : Word) (s : State) :
    let t := (s.setPair p v).charge op
    t.pair p = v ∧ RegsKept s t (pairHalves p) ∧ FlagsKept s t ∧ (p ≠ .sp → t.sp = s.sp) ∧ t.pc = s.pc ∧
      MachineKept s t ∧ t.cycles = cycleCost s.cfg op true := by
  refine ⟨?_, regsKept_setPair s p v rfl, ?_, ?_, ?_, machineKept_of_eq rfl, rfl⟩
  · simp [State.pair, State.charge]
  · cases p <;> rfl
  · cases p <;> simp [State.sp, State.charge, Regs.setPair]
  · cases p <;> rfl

/-- A pair and the flags written and the cost charged. -/
theorem setPair_setFlags_spec (op : Byte) (p : Pair) (v : Word) (x : Flags) (s : State) :
    let t := ((s.setPair p v).setFlags x).charge op
    t.pair p = v ∧ FlagsAre t x.z x.n x.h x.c ∧ RegsKept s t (pairHalves p) ∧ (p ≠ .sp → t.sp = s.sp) ∧ t.pc = s.pc ∧
      MachineKept s t ∧ t.cycles = cycleCost s.cfg op true := by
  refine ⟨?_, flagsAre_of_pack rfl, regsKept_setPair s p v ?_, ?_, ?_, machineKept_of_eq rfl, rfl⟩
  · cases p <;> simp [State.pair, State.charge, Regs.getPair, Regs.setPair]
  · funext q
    cases q <;> rfl
  · cases p <;> simp [State.sp, State.charge, Regs.setPair]
  · cases p <;> rfl

/-! ### Loads and stores of a byte -/

theorem ldRegAt_ok {op : Byte} {r : Reg8} {a : Word} {s : State} {v : Byte} (h : readByte .read s a = .ok v) :
    ldRegAt op r a s = .next ((s.setReg r v).charge op) := by simp [ldRegAt, h, orFault]

theorem ldRegAt_error {op : Byte} {r : Reg8} {a : Word} {s : State} {e : Fault} (h : readByte .read s a = .error e) :
    ldRegAt op r a s = .fault e := by simp [ldRegAt, h, orFault]

/-- A byte store: the byte, the frame and the faults. -/
theorem storeByte_spec (op : Byte) (a : Word) (v : Byte) (s : State) :
    (Writable s.cfg a → ∃ t, storeByte op a v s = .next t ∧ StoredByte s t a v ∧ RegsKept s t [] ∧ FlagsKept s t ∧
      PointersKept s t ∧ StoreKept s t ∧ t.cycles = cycleCost s.cfg op true) ∧ StoreFaults s a (storeByte op a v s) := by
  refine ⟨fun h => ?_, fun h => ?_, fun h => ?_⟩
  · obtain ⟨t, ht⟩ := writeByte_ok v h
    obtain ⟨hr, -, hk⟩ := writeByte_frame ht
    refine ⟨t.charge op, by simp [storeByte, ht, orFault], (writeByte_stored ht).of_eq rfl, ?_, ?_, ?_, hk.of_eq rfl, ?_⟩
    · intro q _
      simp [State.reg, State.charge, hr]
    · simp [FlagsKept, State.charge, hr]
    · simp [PointersKept, State.sp, State.pc, State.charge, hr]
    · simp [State.charge, writeByte_cfg ht]
  · simp [storeByte, writeByte_unmapped v h, orFault]
  · simp [storeByte, writeByte_rom v h, orFault]

/-- The load of A that steps HL. -/
theorem ldAAtHLThen_ok {op : Byte} {next : Word} {s : State} {v : Byte} (h : readByte .read s s.hl = .ok v) :
    ∃ t, ldAAtHLThen op next s = .next t ∧ t.reg .a = v ∧ t.hl = next ∧ RegsKept s t [.a, .h, .l] ∧ FlagsKept s t ∧
      PointersKept s t ∧ MachineKept s t ∧ t.cycles = cycleCost s.cfg op true := by
  refine ⟨((s.setReg .a v).setPair .hl next).charge op, by simp only [ldAAtHLThen, h, orFault], rfl, ?_, ?_, rfl, ⟨rfl, rfl⟩, machineKept_of_eq rfl, rfl⟩
  · simp [State.hl, State.pair, State.charge]
  · intro q hq
    cases q <;> simp at hq <;> rfl

/-- The store of A that steps HL. -/
theorem ldAtHLAThen_spec (op : Byte) (next : Word) (s : State) :
    (Writable s.cfg s.hl → ∃ t, ldAtHLAThen op next s = .next t ∧ StoredByte s t s.hl (s.reg .a) ∧ t.hl = next ∧
      RegsKept s t [.h, .l] ∧ FlagsKept s t ∧ PointersKept s t ∧ StoreKept s t ∧ t.cycles = cycleCost s.cfg op true) ∧
    StoreFaults s s.hl (ldAtHLAThen op next s) := by
  refine ⟨fun h => ?_, fun h => ?_, fun h => ?_⟩
  · obtain ⟨t, ht⟩ := writeByte_ok (s.reg .a) h
    obtain ⟨hr, -, hk⟩ := writeByte_frame ht
    refine ⟨(t.setPair .hl next).charge op, by simp only [ldAtHLAThen, ht, orFault], (writeByte_stored ht).of_eq rfl, ?_, ?_, ?_, ?_, hk.of_eq rfl, ?_⟩
    · simp [State.hl, State.pair, State.charge]
    · intro q hq
      have : t.reg q = s.reg q := by simp [State.reg, hr]
      rw [← this]
      cases q <;> simp at hq <;> rfl
    · simp [FlagsKept, State.charge, hr, Regs.setPair]
    · simp [PointersKept, State.sp, State.pc, State.charge, hr, Regs.setPair]
    · simp [State.charge, writeByte_cfg ht]
  · simp only [ldAtHLAThen, writeByte_unmapped _ h, orFault]
  · simp only [ldAtHLAThen, writeByte_rom _ h, orFault]

/-- INC and DEC of the byte at HL. -/
theorem stepAtHL_spec {op : Byte} (f : Byte → Flags → AluResult) {s : State} {v : Byte}
    (h : readByte .read s s.hl = .ok v) :
    (Writable s.cfg s.hl → ∃ t, stepAtHL op f s = .next t ∧ StoredByte s t s.hl (f v s.flags).value ∧
      FlagsAre t (f v s.flags).flags.z (f v s.flags).flags.n (f v s.flags).flags.h (f v s.flags).flags.c ∧
      RegsKept s t [] ∧ PointersKept s t ∧ StoreKept s t ∧ t.cycles = cycleCost s.cfg op true) ∧
    StoreFaults s s.hl (stepAtHL op f s) := by
  refine ⟨fun hw => ?_, fun hw => ?_, fun hw => ?_⟩
  · obtain ⟨t, ht⟩ := writeByte_ok (f v s.flags).value hw
    obtain ⟨hr, -, hk⟩ := writeByte_frame ht
    refine ⟨(t.setFlags (f v s.flags).flags).charge op, by simp only [stepAtHL, h, ht, orFault], (writeByte_stored ht).of_eq rfl, flagsAre_of_pack rfl, ?_, ?_,
      hk.of_eq rfl, ?_⟩
    · intro q _
      have : t.reg q = s.reg q := by simp [State.reg, hr]
      rw [← this]
      cases q <;> rfl
    · simp [PointersKept, State.sp, State.pc, State.charge, hr]
    · simp [State.charge, writeByte_cfg ht]
  · simp only [stepAtHL, h, writeByte_unmapped _ hw, orFault]
  · simp only [stepAtHL, h, writeByte_rom _ hw, orFault]

theorem stepAtHL_error {op : Byte} {f : Byte → Flags → AluResult} {s : State} {e : Fault}
    (h : readByte .read s s.hl = .error e) : stepAtHL op f s = .fault e := by simp only [stepAtHL, h, orFault]

/-! ### The ALU -/

theorem aluOn_error {op : Byte} {o : AluOp} {x : AluOperand} {s : State} {e : Fault} (h : operandValue s x = .error e) :
    aluOn op o x s = .fault e := by simp [aluOn, h, orFault]

/-- `alu[y] s`: A is the result, but for CP; the flags are the result's. -/
theorem aluOn_ok {op : Byte} {o : AluOp} {x : AluOperand} {s : State} {v : Byte} (h : operandValue s x = .ok v) :
    let r := aluResult o (s.reg .a) v s.flags.c
    ∃ t, aluOn op o x s = .next t ∧ t.reg .a = (if aluWritesA o then r.value else s.reg .a) ∧
      FlagsAre t r.flags.z r.flags.n r.flags.h r.flags.c ∧ RegsKept s t [.a] ∧ PointersKept s t ∧ MachineKept s t ∧
      t.cycles = cycleCost s.cfg op true := by
  intro r
  by_cases ha : aluWritesA o
  · obtain ⟨h1, h2, h3, h4, h5, h6⟩ := setReg_setFlags_spec op .a r.value r.flags s
    exact ⟨_, by simp [aluOn, h, orFault, ha, r], by simpa [ha] using h1, h2, h3, h4, h5, h6⟩
  · obtain ⟨h2, h3, h4, h5, h6⟩ := setFlags_charge_spec op r.flags s
    exact ⟨_, by simp [aluOn, h, orFault, ha, r], by simpa [ha] using h3 .a (by simp), h2,
      fun q hq => h3 q (by simp), h4, h5, h6⟩

/-! ### The stack -/

/-- PUSH, CALL, RST and dispatch share this: SP drops by two and the word there takes the value. -/
theorem push_ok {v : Word} {s : State} (h : WordWritable s.cfg (s.sp - 2#16)) :
    ∃ t, push v s = .ok t ∧ t.regs = { s.regs with sp := s.sp - 2#16 } ∧ t.cycles = s.cycles ∧
      StoredWord s t (s.sp - 2#16) v ∧ StoreKept s t := by
  obtain ⟨t, ht⟩ := writeWord_ok (s := s.setSP (s.sp - 2#16)) v h
  obtain ⟨hr, hc, hk, hs⟩ := writeWord_stored ht
  exact ⟨t, ht, hr, hc, hs.congr_left rfl, hk.congr_left rfl⟩

theorem push_faults (v : Word) (s : State) (k : State → Out) :
    WordStoreFaults s (s.sp - 2#16) (orFault (push v s) k) := by
  refine ⟨⟨fun h => ?_, fun h => ?_⟩, fun d h hd h' => ?_⟩
  · simp only [push, writeWord_unmapped (s := s.setSP (s.sp - 2#16)) v h, orFault]
  · simp only [push, writeWord_rom (s := s.setSP (s.sp - 2#16)) v h, orFault]
  · simp only [push, writeWord_straddle (s := s.setSP (s.sp - 2#16)) v h hd h', orFault]

/-- What a push does when it answers (R145): the inversion of `push`. -/
theorem push_cases {v : Word} {s t : State} (h : push v s = .ok t) :
    WordWritable s.cfg (s.sp - 2#16) ∧ t.regs = { s.regs with sp := s.sp - 2#16 } ∧ t.cycles = s.cycles ∧
      StoredWord s t (s.sp - 2#16) v ∧ StoreKept s t := by
  obtain ⟨hr, hc, hk, hs⟩ := writeWord_stored h
  exact ⟨(writeWord_cases h).1, hr, hc, hs.congr_left rfl, hk.congr_left rfl⟩

/-- A push that answers never writes IE or IF (R236): no word lies wholly in the interrupt controller. -/
theorem push_keeps_interrupts {v : Word} {s t : State} (h : push v s = .ok t) : t.ie = s.ie ∧ t.iflag = s.iflag := by
  obtain ⟨⟨d, hd, -, hd'⟩, -, -, ⟨-, -, ho⟩, -⟩ := push_cases h
  have hne : ∀ b : Word, owner s.cfg b = some .interrupt → b ≠ s.sp - 2#16 ∧ b ≠ s.sp - 2#16 + 1#16 := by
    intro b hb
    have key : ∀ a : Word, owner s.cfg a = some .interrupt → owner s.cfg (a + 1#16) ≠ some .interrupt := by
      intro a ha ha'
      rcases owner_interrupt ha with rfl | rfl <;> rcases owner_interrupt ha' with e | e <;> simp at e
    constructor
    · rintro rfl
      exact key _ hb (by rw [hd', ← hd, hb])
    · rintro rfl
      rw [hd'] at hb
      exact key _ (hd.trans hb) (hd'.trans hb)
  have hc : t.cfg = s.cfg := (push_cases h).2.2.2.2.2.2.2.2.1
  have h1 := ho .read 0xFFFF#16 (hne _ owner_ie).1 (hne _ owner_ie).2
  have h2 := ho .read 0xFF0F#16 (hne _ owner_if).1 (hne _ owner_if).2
  rw [readByte_of_owner owner_ie, readByte_of_owner owner_ie] at h1
  rw [readByte_of_owner owner_if, readByte_of_owner owner_if] at h2
  simpa [deviceRead] using And.intro h1 h2

theorem pop_ok {s : State} {v : Word} (h : readWord .read s s.sp = .ok v) :
    pop s = .ok (v, s.setSP (s.sp + 2#16)) := by simp only [pop, h]

theorem pop_error {s : State} {e : Fault} (h : readWord .read s s.sp = .error e) : pop s = .error e := by
  simp only [pop, h]

/-- What a pop does when it answers (R145): the inversion of `pop`. -/
theorem pop_cases {s t : State} {v : Word} (h : pop s = .ok (v, t)) :
    readWord .read s s.sp = .ok v ∧ t = s.setSP (s.sp + 2#16) := by
  unfold pop at h
  split at h
  · cases h
  · cases h
    exact ⟨‹_›, rfl⟩

/-- CALL and RST. -/
theorem callTo_spec (op : Byte) (target : Word) (s : State) :
    (WordWritable s.cfg (s.sp - 2#16) → ∃ t, callTo op target s = .next t ∧ t.pc = target ∧ t.sp = s.sp - 2#16 ∧
      StoredWord s t (s.sp - 2#16) s.pc ∧ RegsKept s t [] ∧ FlagsKept s t ∧ StoreKept s t ∧
      t.cycles = cycleCost s.cfg op true) ∧ WordStoreFaults s (s.sp - 2#16) (callTo op target s) := by
  refine ⟨fun h => ?_, push_faults _ _ _⟩
  obtain ⟨t, ht, hr, -, hs, hk⟩ := push_ok (v := s.pc) h
  refine ⟨(t.setPC target).charge op, by simp only [callTo, ht, orFault], rfl, ?_, hs.of_eq rfl, ?_, ?_, hk.of_eq rfl, ?_⟩
  · simp [State.sp, State.charge, hr]
  · intro q _
    cases q <;> simp [State.reg, State.charge, hr, Regs.get]
  · simp [FlagsKept, State.charge, hr]
  · simp [State.charge, hk.2.2.2.2.1]

/-- RET. -/
theorem popPC_ok {op : Byte} {s : State} {v : Word} (h : readWord .read s s.sp = .ok v) :
    ∃ t, popPC op s = .next t ∧ t.pc = v ∧ t.sp = s.sp + 2#16 ∧ RegsKept s t [] ∧ FlagsKept s t ∧ MachineKept s t ∧
      t.cycles = cycleCost s.cfg op true :=
  ⟨((s.setSP (s.sp + 2#16)).setPC v).charge op, by simp only [popPC, pop_ok h, orFault], rfl, rfl, fun q _ => by cases q <;> rfl, rfl, machineKept_of_eq rfl, rfl⟩

theorem popPC_error {op : Byte} {s : State} {e : Fault} (h : readWord .read s s.sp = .error e) :
    popPC op s = .fault e := by simp [popPC, pop_error h, orFault]

/-- A jump. -/
theorem jumpTo_spec (op : Byte) (target : Word) (s : State) :
    ∃ t, jumpTo op target s = .next t ∧ t.pc = target ∧ t.sp = s.sp ∧ RegsKept s t [] ∧ FlagsKept s t ∧
      MachineKept s t ∧ t.cycles = cycleCost s.cfg op true :=
  ⟨_, rfl, rfl, rfl, fun q _ => by cases q <;> rfl, rfl, machineKept_of_eq rfl, rfl⟩

/-- A conditional instruction that is not taken: PC stays past it, and only the count changes. -/
theorem ifCond_not {op : Byte} {cc : Cond} {o : Out} {s : State} (h : condHolds cc s = false) :
    ∃ t, ifCond op cc o s = .next t ∧ RegsKept s t [] ∧ FlagsKept s t ∧ PointersKept s t ∧ MachineKept s t ∧
      t.cycles = cycleCost s.cfg op false :=
  ⟨s.chargeNotTaken op, by simp only [ifCond, h, Bool.false_eq_true, ↓reduceIte], fun _ _ => rfl, rfl, ⟨rfl, rfl⟩, machineKept_of_eq rfl,
    rfl⟩

theorem ifCond_taken {op : Byte} {cc : Cond} {o : Out} {s : State} (h : condHolds cc s = true) :
    ifCond op cc o s = o := by simp [ifCond, h]

/-- Sign extension is the signed value modulo 2^16 (R12). -/
theorem sext16_eq (e : Byte) : sext16 e = BitVec.ofInt 16 e.toInt := by
  revert e
  decide

end Sys2Proof.Machine
end

