-- ==== Sys2Proof/Laws/Forms.lean ====
section
/-! SUPPORT. Every meaning is one of a few forms: the inversion of `exec`. A fact about what any instruction can do is one
case per form. -/

namespace Sys2Proof.Machine

/-- The flags a table entry does not name are the old ones. -/
def FlagsKeep (w new old : Flags) : Prop :=
  (w.z = false → new.z = old.z) ∧ (w.n = false → new.n = old.n) ∧ (w.h = false → new.h = old.h) ∧
  (w.c = false → new.c = old.c)

/-- The outcomes an instruction can have in a state, by the shared operation of its meaning. -/
inductive ExecForm (i : Instr) (s : State) : Out → Prop
  | reg (r : Reg8) (v : Byte) : ExecForm i s (.next ((s.setReg r v).charge i.opcode))
  | regAt (r : Reg8) (a : Word) : ExecForm i s (ldRegAt i.opcode r a s)
  | store (a : Word) (v : Byte) : ExecForm i s (storeByte i.opcode a v s)
  | loadStep (next : Word) : ExecForm i s (ldAAtHLThen i.opcode next s)
  | storeStep (next : Word) : ExecForm i s (ldAtHLAThen i.opcode next s)
  | pair (p : Pair) (v : Word) : ExecForm i s (ldPairWord i.opcode p v s)
  | storeWord (a v : Word) : ExecForm i s (orFault (writeWord s a v) fun t => .next (t.charge i.opcode))
  | push (p : StackPair) : ExecForm i s (pushPair i.opcode p s)
  | pop (p : StackPair) (hw : flagsWritten i.opcode = if p = .af then ⟨true, true, true, true⟩ else ⟨false, false, false, false⟩) :
      ExecForm i s (popPair i.opcode p s)
  | spPlus (p : Pair) (e : Byte) (hw : flagsWritten i.opcode = ⟨true, true, true, true⟩) :
      ExecForm i s (spPlus i.opcode p e s)
  | alu (o : AluOp) (x : AluOperand) (hw : flagsWritten i.opcode = ⟨true, true, true, true⟩) :
      ExecForm i s (aluOn i.opcode o x s)
  | stepReg {f : Byte → Flags → AluResult} (hf : f = inc8 ∨ f = dec8) (r : Reg8)
      (hw : flagsWritten i.opcode = ⟨true, true, true, false⟩) : ExecForm i s (stepReg i.opcode f r s)
  | stepAtHL {f : Byte → Flags → AluResult} (hf : f = inc8 ∨ f = dec8)
      (hw : flagsWritten i.opcode = ⟨true, true, true, false⟩) : ExecForm i s (stepAtHL i.opcode f s)
  | putA (v : AluResult) (hw : FlagsKeep (flagsWritten i.opcode) v.flags s.flags) : ExecForm i s (putA i.opcode v s)
  | setFlags (x : Flags) (hw : FlagsKeep (flagsWritten i.opcode) x s.flags) :
      ExecForm i s (.next ((s.setFlags x).charge i.opcode))
  | addHL (b : Word) (hw : flagsWritten i.opcode = ⟨false, true, true, true⟩) : ExecForm i s (addHL i.opcode b s)
  | jump (target : Word) : ExecForm i s (jumpTo i.opcode target s)
  | call (target : Word) : ExecForm i s (callTo i.opcode target s)
  | ret : ExecForm i s (popPC i.opcode s)
  | cond (cc : Cond) {o : Out} (ho : ExecForm i s o) : ExecForm i s (ifCond i.opcode cc o s)
  | reti (hw : writesIme i = true) :
      ExecForm i s (orFault (returnFromInterrupt s) fun t => .next (t.charge i.opcode))
  | nop : ExecForm i s (.next (s.charge i.opcode))
  | halt (hw : entersHalt i = true) : ExecForm i s (.next ((s.setHalted true).charge i.opcode))
  | setIme (v : Bool) (hw : writesIme i = true) : ExecForm i s (.next ((s.setIme v).charge i.opcode))
  | unassigned : ExecForm i s (unknownOpcodeAt i.opcode s)

/-- The inversion of `exec`. -/
theorem exec_form (i : Instr) (s : State) : ExecForm i s (exec i s) := by
  cases i with
  | nop => exact .nop
  | ldBCnn _ => exact .pair _ _
  | ldAtBCA => exact .store _ _
  | incBC => exact .pair _ _
  | incB => exact .stepReg (.inl rfl) _ rfl
  | decB => exact .stepReg (.inr rfl) _ rfl
  | ldBn _ => exact .reg _ _
  | rlca => exact .putA _ ⟨nofun, nofun, nofun, nofun⟩
  | ldAtnnSP _ => exact .storeWord _ _
  | addHLBC => exact .addHL _ rfl
  | ldAAtBC => exact .regAt _ _
  | decBC => exact .pair _ _
  | incC => exact .stepReg (.inl rfl) _ rfl
  | decC => exact .stepReg (.inr rfl) _ rfl
  | ldCn _ => exact .reg _ _
  | rrca => exact .putA _ ⟨nofun, nofun, nofun, nofun⟩
  | stop _ => exact .halt rfl
  | ldDEnn _ => exact .pair _ _
  | ldAtDEA => exact .store _ _
  | incDE => exact .pair _ _
  | incD => exact .stepReg (.inl rfl) _ rfl
  | decD => exact .stepReg (.inr rfl) _ rfl
  | ldDn _ => exact .reg _ _
  | rla => exact .putA _ ⟨nofun, nofun, nofun, nofun⟩
  | jre _ => exact .jump _
  | addHLDE => exact .addHL _ rfl
  | ldAAtDE => exact .regAt _ _
  | decDE => exact .pair _ _
  | incE => exact .stepReg (.inl rfl) _ rfl
  | decE => exact .stepReg (.inr rfl) _ rfl
  | ldEn _ => exact .reg _ _
  | rra => exact .putA _ ⟨nofun, nofun, nofun, nofun⟩
  | jrNZe _ => exact .cond _ (.jump _)
  | ldHLnn _ => exact .pair _ _
  | ldAtHLIncA => exact .storeStep _
  | incHL => exact .pair _ _
  | incH => exact .stepReg (.inl rfl) _ rfl
  | decH => exact .stepReg (.inr rfl) _ rfl
  | ldHn _ => exact .reg _ _
  | daa => exact .putA _ ⟨nofun, fun _ => rfl, nofun, nofun⟩
  | jrZe _ => exact .cond _ (.jump _)
  | addHLHL => exact .addHL _ rfl
  | ldAAtHLInc => exact .loadStep _
  | decHL => exact .pair _ _
  | incL => exact .stepReg (.inl rfl) _ rfl
  | decL => exact .stepReg (.inr rfl) _ rfl
  | ldLn _ => exact .reg _ _
  | cpl => exact .putA _ ⟨fun _ => rfl, nofun, nofun, fun _ => rfl⟩
  | jrNCe _ => exact .cond _ (.jump _)
  | ldSPnn _ => exact .pair _ _
  | ldAtHLDecA => exact .storeStep _
  | incSP => exact .pair _ _
  | incAtHL => exact .stepAtHL (.inl rfl) rfl
  | decAtHL => exact .stepAtHL (.inr rfl) rfl
  | ldAtHLn _ => exact .store _ _
  | scf => exact .setFlags _ ⟨fun _ => rfl, nofun, nofun, nofun⟩
  | jrCe _ => exact .cond _ (.jump _)
  | addHLSP => exact .addHL _ rfl
  | ldAAtHLDec => exact .loadStep _
  | decSP => exact .pair _ _
  | incA => exact .stepReg (.inl rfl) _ rfl
  | decA => exact .stepReg (.inr rfl) _ rfl
  | ldAn _ => exact .reg _ _
  | ccf => exact .setFlags _ ⟨fun _ => rfl, nofun, nofun, nofun⟩
  | ldBB => exact .reg _ _
  | ldBC => exact .reg _ _
  | ldBD => exact .reg _ _
  | ldBE => exact .reg _ _
  | ldBH => exact .reg _ _
  | ldBL => exact .reg _ _
  | ldBAtHL => exact .regAt _ _
  | ldBA => exact .reg _ _
  | ldCB => exact .reg _ _
  | ldCC => exact .reg _ _
  | ldCD => exact .reg _ _
  | ldCE => exact .reg _ _
  | ldCH => exact .reg _ _
  | ldCL => exact .reg _ _
  | ldCAtHL => exact .regAt _ _
  | ldCA => exact .reg _ _
  | ldDB => exact .reg _ _
  | ldDC => exact .reg _ _
  | ldDD => exact .reg _ _
  | ldDE => exact .reg _ _
  | ldDH => exact .reg _ _
  | ldDL => exact .reg _ _
  | ldDAtHL => exact .regAt _ _
  | ldDA => exact .reg _ _
  | ldEB => exact .reg _ _
  | ldEC => exact .reg _ _
  | ldED => exact .reg _ _
  | ldEE => exact .reg _ _
  | ldEH => exact .reg _ _
  | ldEL => exact .reg _ _
  | ldEAtHL => exact .regAt _ _
  | ldEA => exact .reg _ _
  | ldHB => exact .reg _ _
  | ldHC => exact .reg _ _
  | ldHD => exact .reg _ _
  | ldHE => exact .reg _ _
  | ldHH => exact .reg _ _
  | ldHL => exact .reg _ _
  | ldHAtHL => exact .regAt _ _
  | ldHA => exact .reg _ _
  | ldLB => exact .reg _ _
  | ldLC => exact .reg _ _
  | ldLD => exact .reg _ _
  | ldLE => exact .reg _ _
  | ldLH => exact .reg _ _
  | ldLL => exact .reg _ _
  | ldLAtHL => exact .regAt _ _
  | ldLA => exact .reg _ _
  | ldAtHLB => exact .store _ _
  | ldAtHLC => exact .store _ _
  | ldAtHLD => exact .store _ _
  | ldAtHLE => exact .store _ _
  | ldAtHLH => exact .store _ _
  | ldAtHLL => exact .store _ _
  | halt => exact .halt rfl
  | ldAtHLA => exact .store _ _
  | ldAB => exact .reg _ _
  | ldAC => exact .reg _ _
  | ldAD => exact .reg _ _
  | ldAE => exact .reg _ _
  | ldAH => exact .reg _ _
  | ldAL => exact .reg _ _
  | ldAAtHL => exact .regAt _ _
  | ldAA => exact .reg _ _
  | addAB => exact .alu (i := .addAB) (s := s) .add (.reg .b) rfl
  | addAC => exact .alu (i := .addAC) (s := s) .add (.reg .c) rfl
  | addAD => exact .alu (i := .addAD) (s := s) .add (.reg .d) rfl
  | addAE => exact .alu (i := .addAE) (s := s) .add (.reg .e) rfl
  | addAH => exact .alu (i := .addAH) (s := s) .add (.reg .h) rfl
  | addAL => exact .alu (i := .addAL) (s := s) .add (.reg .l) rfl
  | addAAtHL => exact .alu (i := .addAAtHL) (s := s) .add .atHL rfl
  | addAA => exact .alu (i := .addAA) (s := s) .add (.reg .a) rfl
  | adcAB => exact .alu (i := .adcAB) (s := s) .adc (.reg .b) rfl
  | adcAC => exact .alu (i := .adcAC) (s := s) .adc (.reg .c) rfl
  | adcAD => exact .alu (i := .adcAD) (s := s) .adc (.reg .d) rfl
  | adcAE => exact .alu (i := .adcAE) (s := s) .adc (.reg .e) rfl
  | adcAH => exact .alu (i := .adcAH) (s := s) .adc (.reg .h) rfl
  | adcAL => exact .alu (i := .adcAL) (s := s) .adc (.reg .l) rfl
  | adcAAtHL => exact .alu (i := .adcAAtHL) (s := s) .adc .atHL rfl
  | adcAA => exact .alu (i := .adcAA) (s := s) .adc (.reg .a) rfl
  | subB => exact .alu (i := .subB) (s := s) .sub (.reg .b) rfl
  | subC => exact .alu (i := .subC) (s := s) .sub (.reg .c) rfl
  | subD => exact .alu (i := .subD) (s := s) .sub (.reg .d) rfl
  | subE => exact .alu (i := .subE) (s := s) .sub (.reg .e) rfl
  | subH => exact .alu (i := .subH) (s := s) .sub (.reg .h) rfl
  | subL => exact .alu (i := .subL) (s := s) .sub (.reg .l) rfl
  | subAtHL => exact .alu (i := .subAtHL) (s := s) .sub .atHL rfl
  | subA => exact .alu (i := .subA) (s := s) .sub (.reg .a) rfl
  | sbcAB => exact .alu (i := .sbcAB) (s := s) .sbc (.reg .b) rfl
  | sbcAC => exact .alu (i := .sbcAC) (s := s) .sbc (.reg .c) rfl
  | sbcAD => exact .alu (i := .sbcAD) (s := s) .sbc (.reg .d) rfl
  | sbcAE => exact .alu (i := .sbcAE) (s := s) .sbc (.reg .e) rfl
  | sbcAH => exact .alu (i := .sbcAH) (s := s) .sbc (.reg .h) rfl
  | sbcAL => exact .alu (i := .sbcAL) (s := s) .sbc (.reg .l) rfl
  | sbcAAtHL => exact .alu (i := .sbcAAtHL) (s := s) .sbc .atHL rfl
  | sbcAA => exact .alu (i := .sbcAA) (s := s) .sbc (.reg .a) rfl
  | andB => exact .alu (i := .andB) (s := s) .and (.reg .b) rfl
  | andC => exact .alu (i := .andC) (s := s) .and (.reg .c) rfl
  | andD => exact .alu (i := .andD) (s := s) .and (.reg .d) rfl
  | andE => exact .alu (i := .andE) (s := s) .and (.reg .e) rfl
  | andH => exact .alu (i := .andH) (s := s) .and (.reg .h) rfl
  | andL => exact .alu (i := .andL) (s := s) .and (.reg .l) rfl
  | andAtHL => exact .alu (i := .andAtHL) (s := s) .and .atHL rfl
  | andA => exact .alu (i := .andA) (s := s) .and (.reg .a) rfl
  | xorB => exact .alu (i := .xorB) (s := s) .xor (.reg .b) rfl
  | xorC => exact .alu (i := .xorC) (s := s) .xor (.reg .c) rfl
  | xorD => exact .alu (i := .xorD) (s := s) .xor (.reg .d) rfl
  | xorE => exact .alu (i := .xorE) (s := s) .xor (.reg .e) rfl
  | xorH => exact .alu (i := .xorH) (s := s) .xor (.reg .h) rfl
  | xorL => exact .alu (i := .xorL) (s := s) .xor (.reg .l) rfl
  | xorAtHL => exact .alu (i := .xorAtHL) (s := s) .xor .atHL rfl
  | xorA => exact .alu (i := .xorA) (s := s) .xor (.reg .a) rfl
  | orB => exact .alu (i := .orB) (s := s) .or (.reg .b) rfl
  | orC => exact .alu (i := .orC) (s := s) .or (.reg .c) rfl
  | orD => exact .alu (i := .orD) (s := s) .or (.reg .d) rfl
  | orE => exact .alu (i := .orE) (s := s) .or (.reg .e) rfl
  | orH => exact .alu (i := .orH) (s := s) .or (.reg .h) rfl
  | orL => exact .alu (i := .orL) (s := s) .or (.reg .l) rfl
  | orAtHL => exact .alu (i := .orAtHL) (s := s) .or .atHL rfl
  | orA => exact .alu (i := .orA) (s := s) .or (.reg .a) rfl
  | cpB => exact .alu (i := .cpB) (s := s) .cp (.reg .b) rfl
  | cpC => exact .alu (i := .cpC) (s := s) .cp (.reg .c) rfl
  | cpD => exact .alu (i := .cpD) (s := s) .cp (.reg .d) rfl
  | cpE => exact .alu (i := .cpE) (s := s) .cp (.reg .e) rfl
  | cpH => exact .alu (i := .cpH) (s := s) .cp (.reg .h) rfl
  | cpL => exact .alu (i := .cpL) (s := s) .cp (.reg .l) rfl
  | cpAtHL => exact .alu (i := .cpAtHL) (s := s) .cp .atHL rfl
  | cpA => exact .alu (i := .cpA) (s := s) .cp (.reg .a) rfl
  | retNZ => exact .cond _ .ret
  | popBC => exact .pop .bc rfl
  | jpNZnn _ => exact .cond _ (.jump _)
  | jpnn _ => exact .jump _
  | callNZnn _ => exact .cond _ (.call _)
  | pushBC => exact .push _
  | addAn n => exact .alu (i := .addAn n) (s := s) .add (.imm n) (show flagsWritten 0xC6#8 = _ from rfl)
  | rst00 => exact .call _
  | retZ => exact .cond _ .ret
  | ret => exact .ret
  | jpZnn _ => exact .cond _ (.jump _)
  | cbPrefix => exact .unassigned
  | callZnn _ => exact .cond _ (.call _)
  | callnn _ => exact .call _
  | adcAn n => exact .alu (i := .adcAn n) (s := s) .adc (.imm n) (show flagsWritten 0xCE#8 = _ from rfl)
  | rst08 => exact .call _
  | retNC => exact .cond _ .ret
  | popDE => exact .pop .de rfl
  | jpNCnn _ => exact .cond _ (.jump _)
  | illegalD3 => exact .unassigned
  | callNCnn _ => exact .cond _ (.call _)
  | pushDE => exact .push _
  | subn n => exact .alu (i := .subn n) (s := s) .sub (.imm n) (show flagsWritten 0xD6#8 = _ from rfl)
  | rst10 => exact .call _
  | retC => exact .cond _ .ret
  | reti => exact .reti rfl
  | jpCnn _ => exact .cond _ (.jump _)
  | illegalDB => exact .unassigned
  | callCnn _ => exact .cond _ (.call _)
  | illegalDD => exact .unassigned
  | sbcAn n => exact .alu (i := .sbcAn n) (s := s) .sbc (.imm n) (show flagsWritten 0xDE#8 = _ from rfl)
  | rst18 => exact .call _
  | ldhAtnA _ => exact .store _ _
  | popHL => exact .pop .hl rfl
  | ldAtCA => exact .store _ _
  | illegalE3 => exact .unassigned
  | illegalE4 => exact .unassigned
  | pushHL => exact .push _
  | andn n => exact .alu (i := .andn n) (s := s) .and (.imm n) (show flagsWritten 0xE6#8 = _ from rfl)
  | rst20 => exact .call _
  | addSPe _ => exact .spPlus _ _ (show flagsWritten 0xE8#8 = _ from rfl)
  | jpHL => exact .jump _
  | ldAtnnA _ => exact .store _ _
  | illegalEB => exact .unassigned
  | illegalEC => exact .unassigned
  | illegalED => exact .unassigned
  | xorn n => exact .alu (i := .xorn n) (s := s) .xor (.imm n) (show flagsWritten 0xEE#8 = _ from rfl)
  | rst28 => exact .call _
  | ldhAAtn _ => exact .regAt _ _
  | popAF => exact .pop .af rfl
  | ldAAtC => exact .regAt _ _
  | di => exact .setIme _ rfl
  | illegalF4 => exact .unassigned
  | pushAF => exact .push _
  | orn n => exact .alu (i := .orn n) (s := s) .or (.imm n) (show flagsWritten 0xF6#8 = _ from rfl)
  | rst30 => exact .call _
  | ldHLSPe _ => exact .spPlus _ _ (show flagsWritten 0xF8#8 = _ from rfl)
  | ldSPHL => exact .pair _ _
  | ldAAtnn _ => exact .regAt _ _
  | ei => exact .setIme _ rfl
  | illegalFC => exact .unassigned
  | illegalFD => exact .unassigned
  | cpn n => exact .alu (i := .cpn n) (s := s) .cp (.imm n) (show flagsWritten 0xFE#8 = _ from rfl)
  | rst38 => exact .call _

end Sys2Proof.Machine
end

