-- ==== Sys2Proof/Laws/Effect.lean ====
section
/-! SUPPORT. What any instruction that answers can have done: one lemma over the forms of Laws/Forms.lean, from which the
invariants and the whole-machine rules follow. -/

namespace Sys2Proof.Machine

/-- What no instruction breaks: the outputs, the parameters and the cartridge stay; memory stays canonical, F[3:0] and the
stored STAT bits 1:0 stay zero. -/
structure Effect (s t : State) : Prop where
  outputs : OutputsKept s t
  rom : ∀ a, a < 0x8000 → Memory.read t.mem a = Memory.read s.mem a
  wf : Memory.wf s.mem = true → Memory.wf t.mem = true
  f : s.regs.f &&& 0x0F#8 = 0#8 → t.regs.f &&& 0x0F#8 = 0#8
  stat : s.ppu.stat &&& 0x03#8 = 0#8 → t.ppu.stat &&& 0x03#8 = 0#8

theorem Effect.refl (s : State) : Effect s s :=
  ⟨⟨rfl, rfl, rfl, rfl, rfl, rfl⟩, fun _ _ => rfl, id, id, id⟩

theorem Effect.trans {s t u : State} (x : Effect s t) (y : Effect t u) : Effect s u := by
  obtain ⟨a1, a2, a3, a4, a5, a6⟩ := x.outputs
  obtain ⟨b1, b2, b3, b4, b5, b6⟩ := y.outputs
  exact ⟨⟨b1.trans a1, b2.trans a2, b3.trans a3, b4.trans a4, b5.trans a5, b6.trans a6⟩,
    fun a h => (y.rom a h).trans (x.rom a h), y.wf ∘ x.wf, y.f ∘ x.f, y.stat ∘ x.stat⟩

/-- A change of registers, control bits, IE, IF and count only. -/
theorem effect_of_eq {s t : State} (h : t = { s with
    regs := t.regs, ime := t.ime, halted := t.halted, ie := t.ie, iflag := t.iflag, cycles := t.cycles })
    (hf : s.regs.f &&& 0x0F#8 = 0#8 → t.regs.f &&& 0x0F#8 = 0#8) : Effect s t := by
  refine ⟨?_, ?_, ?_, hf, ?_⟩ <;> rw [h]
  · exact ⟨rfl, rfl, rfl, rfl, rfl, rfl⟩
  · exact fun _ _ => rfl
  · exact id
  · exact id

/-- A byte write (R55): ROM is never written (R68). -/
theorem writeByte_effect {s t : State} {a : Word} {v : Byte} (h : writeByte s a v = .ok t) :
    Effect s t ∧ t.ime = s.ime ∧ t.halted = s.halted := by
  rcases writeByte_cases h with ⟨hs, rfl⟩ | ⟨-, -, -, rfl⟩ | ⟨-, rfl⟩ | ⟨-, rfl⟩
  · have ha : 0x8000 ≤ a.toNat := by
      rcases hs with hs | hs | hs | ⟨hs, -⟩ <;> exact owner_ge_rom hs (by simp)
    exact ⟨⟨⟨rfl, rfl, rfl, rfl, rfl, rfl⟩, fun b hb => Memory.read_write_other _ _ (by omega),
      Memory.wf_write _ _ _ a.isLt, id, id⟩, rfl, rfl⟩
  · exact ⟨⟨⟨rfl, rfl, rfl, rfl, by simp, by simp⟩, fun _ _ => rfl, id, id, Ppu.write_stat _ _ _⟩, rfl, rfl⟩
  · exact ⟨effect_of_eq rfl id, rfl, rfl⟩
  · exact ⟨effect_of_eq rfl id, rfl, rfl⟩

theorem writeWord_effect {s t : State} {a v : Word} (h : writeWord s a v = .ok t) :
    Effect s t ∧ t.ime = s.ime ∧ t.halted = s.halted := by
  obtain ⟨-, u, hu, ht⟩ := writeWord_cases h
  obtain ⟨e1, i1, h1⟩ := writeByte_effect hu
  obtain ⟨e2, i2, h2⟩ := writeByte_effect ht
  exact ⟨e1.trans e2, i2.trans i1, h2.trans h1⟩

theorem push_effect {s t : State} {v : Word} (h : push v s = .ok t) :
    Effect s t ∧ t.ime = s.ime ∧ t.halted = s.halted := by
  obtain ⟨e, i, hh⟩ := writeWord_effect h
  exact ⟨(effect_of_eq (s := s) (t := s.setSP (s.sp - 2#16)) rfl id).trans e, i, hh⟩

/-- The inversion of `orFault`: an answer comes from an answer. -/
theorem orFault_next {α : Type} {r : Except Fault α} {k : α → Out} {t : State} (h : orFault r k = .next t) :
    ∃ v, r = .ok v ∧ k v = .next t := by
  cases r with
  | ok v => exact ⟨v, rfl, h⟩
  | error e => cases h

theorem thenRun_next {o : Out} {k : State → Out} {t : State} (h : thenRun o k = .next t) :
    ∃ s, o = .next s ∧ k s = .next t := by
  cases o with
  | next s => exact ⟨s, rfl, h⟩
  | fault r => cases h
  | refused r => cases h

/-- What an answer of a form tells: the effect, which control bits stay, the cost, the flags kept (R26, R29, R30). -/
structure Answer (i : Instr) (s t : State) : Prop where
  effect : Effect s t
  ime : writesIme i = false → t.ime = s.ime
  halted : entersHalt i = false → t.halted = s.halted
  stays : s.halted = true → t.halted = true
  cost : ∃ b, t.cycles = cycleCost s.cfg i.opcode b
  flags : FlagsKeep (flagsWritten i.opcode) t.flags s.flags

theorem flagsKeep_refl (w x : Flags) : FlagsKeep w x x := ⟨fun _ => rfl, fun _ => rfl, fun _ => rfl, fun _ => rfl⟩

/-- An answer whose result differs from the state after a bus operation in registers and count. -/
theorem answer_of {i : Instr} {s u t : State} (e : Effect s u) (him : u.ime = s.ime) (hh : u.halted = s.halted)
    (ht : t = { u with regs := t.regs, cycles := t.cycles }) (hc : ∃ b, t.cycles = cycleCost s.cfg i.opcode b)
    (hl : u.regs.f &&& 0x0F#8 = 0#8 → t.regs.f &&& 0x0F#8 = 0#8)
    (hf : FlagsKeep (flagsWritten i.opcode) t.flags s.flags) : Answer i s t := by
  have h1 : t.ime = s.ime := by rw [ht]; exact him
  have h2 : t.halted = s.halted := by rw [ht]; exact hh
  refine ⟨e.trans (effect_of_eq ?_ hl), fun _ => h1, fun _ => h2, fun h => h2.trans h, hc, hf⟩
  rw [ht]

theorem inc_dec_flags {f : Byte → Flags → AluResult} (hf : f = inc8 ∨ f = dec8) (v : Byte) (x : Flags) :
    (f v x).flags.c = x.c := by
  rcases hf with rfl | rfl
  · rw [inc8_eq]
  · rw [dec8_eq]

/-- Every answer of every instruction. -/
theorem form_answer {i : Instr} {s t : State} {o : Out} (ho : ExecForm i s o) (h : o = .next t) : Answer i s t := by
  induction ho with
  | reg r v =>
    cases h
    exact answer_of (.refl s) rfl rfl rfl ⟨_, rfl⟩ (by simp [State.charge]) (by simp [State.charge, flagsKeep_refl])
  | regAt r a =>
    obtain ⟨v, -, h⟩ := orFault_next h
    cases h
    exact answer_of (.refl s) rfl rfl rfl ⟨_, rfl⟩ (by simp [State.charge]) (by simp [State.charge, flagsKeep_refl])
  | store a v =>
    obtain ⟨u, hu, h⟩ := orFault_next h
    cases h
    obtain ⟨e, hi, hh⟩ := writeByte_effect hu
    obtain ⟨hr, -⟩ := writeByte_frame hu
    exact answer_of e hi hh rfl ⟨true, by simp [State.charge, writeByte_cfg hu]⟩ (by simp [State.charge])
      (by simp [State.charge, hr, flagsKeep_refl])
  | loadStep next =>
    obtain ⟨v, -, h⟩ := orFault_next h
    cases h
    exact answer_of (.refl s) rfl rfl rfl ⟨_, rfl⟩ (by simp [State.charge]) (by simp [State.charge, flagsKeep_refl])
  | storeStep next =>
    obtain ⟨u, hu, h⟩ := orFault_next h
    cases h
    obtain ⟨e, hi, hh⟩ := writeByte_effect hu
    obtain ⟨hr, -⟩ := writeByte_frame hu
    exact answer_of e hi hh rfl ⟨true, by simp [State.charge, writeByte_cfg hu]⟩ (by simp [State.charge])
      (by simp [State.charge, hr, flagsKeep_refl])
  | pair p v =>
    cases h
    exact answer_of (.refl s) rfl rfl rfl ⟨_, rfl⟩ (by simp [State.charge]) (by simp [State.charge, flagsKeep_refl])
  | storeWord a v =>
    obtain ⟨u, hu, h⟩ := orFault_next h
    cases h
    obtain ⟨e, hi, hh⟩ := writeWord_effect hu
    obtain ⟨hr, -⟩ := writeWord_stored hu
    exact answer_of e hi hh rfl ⟨true, by simp [State.charge, e.outputs.2.2.2.1]⟩ (by simp [State.charge])
      (by simp [State.charge, hr, flagsKeep_refl])
  | push p =>
    obtain ⟨u, hu, h⟩ := orFault_next h
    cases h
    obtain ⟨e, hi, hh⟩ := push_effect hu
    obtain ⟨-, hr, -⟩ := push_cases hu
    exact answer_of e hi hh rfl ⟨true, by simp [State.charge, e.outputs.2.2.2.1]⟩ (by simp [State.charge])
      (by simp [State.charge, hr, flagsKeep_refl])
  | pop p hw =>
    obtain ⟨⟨v, u⟩, hu, h⟩ := orFault_next h
    cases h
    obtain ⟨-, rfl⟩ := pop_cases hu
    refine answer_of (u := s) (.refl s) rfl rfl rfl ⟨_, rfl⟩ ?_ ?_
    · cases p
      case af => simp [State.charge, Regs.setStackPair, BitVec.and_assoc]
      all_goals simp [State.charge, Regs.setStackPair]
    · rw [hw]
      cases p
      case af => exact ⟨nofun, nofun, nofun, nofun⟩
      all_goals simp [State.charge, Regs.setStackPair, flagsKeep_refl]
  | spPlus p e hw =>
    cases h
    exact answer_of (.refl s) rfl rfl rfl ⟨_, rfl⟩ (by simp [State.charge]) (hw ▸ ⟨nofun, nofun, nofun, nofun⟩)
  | alu o x hw =>
    obtain ⟨v, -, h⟩ := orFault_next h
    cases h
    refine answer_of (u := s) (.refl s) rfl rfl ?_ ⟨true, ?_⟩ (by simp [State.charge]) (hw ▸ ⟨nofun, nofun, nofun, nofun⟩)
    · split <;> rfl
    · split <;> rfl
  | stepReg hf r hw =>
    cases h
    refine answer_of (.refl s) rfl rfl rfl ⟨_, rfl⟩ (by simp [State.charge]) (hw ▸ ⟨nofun, nofun, nofun, fun _ => ?_⟩)
    simpa [State.charge] using inc_dec_flags hf _ _
  | stepAtHL hf hw =>
    obtain ⟨v, -, h⟩ := orFault_next h
    obtain ⟨u, hu, h⟩ := orFault_next h
    cases h
    obtain ⟨e, hi, hh⟩ := writeByte_effect hu
    refine answer_of e hi hh rfl ⟨true, by simp [State.charge, writeByte_cfg hu]⟩ (by simp [State.charge])
      (hw ▸ ⟨nofun, nofun, nofun, fun _ => ?_⟩)
    simpa [State.charge] using inc_dec_flags hf _ _
  | putA v hw =>
    cases h
    exact answer_of (.refl s) rfl rfl rfl ⟨_, rfl⟩ (by simp [State.charge]) (by simpa [State.charge] using hw)
  | setFlags x hw =>
    cases h
    exact answer_of (.refl s) rfl rfl rfl ⟨_, rfl⟩ (by simp [State.charge]) (by simpa [State.charge] using hw)
  | addHL b hw =>
    cases h
    exact answer_of (.refl s) rfl rfl rfl ⟨_, rfl⟩ (by simp [State.charge])
      (hw ▸ ⟨fun _ => by simp [State.charge, addHLFlags], nofun, nofun, nofun⟩)
  | jump target =>
    cases h
    exact answer_of (.refl s) rfl rfl rfl ⟨_, rfl⟩ (by simp [State.charge]) (by simp [State.charge, flagsKeep_refl])
  | call target =>
    obtain ⟨u, hu, h⟩ := orFault_next h
    cases h
    obtain ⟨e, hi, hh⟩ := push_effect hu
    obtain ⟨-, hr, -⟩ := push_cases hu
    exact answer_of e hi hh rfl ⟨true, by simp [State.charge, e.outputs.2.2.2.1]⟩ (by simp [State.charge])
      (by simp [State.charge, hr, flagsKeep_refl])
  | ret =>
    obtain ⟨⟨v, u⟩, hu, h⟩ := orFault_next h
    cases h
    obtain ⟨-, rfl⟩ := pop_cases hu
    exact answer_of (u := s) (.refl s) rfl rfl rfl ⟨_, rfl⟩ (by simp [State.charge])
      (by simp [State.charge, flagsKeep_refl])
  | cond cc ho ih =>
    unfold ifCond at h
    split at h
    · exact ih h
    · cases h
      exact answer_of (.refl s) rfl rfl rfl ⟨_, rfl⟩ (by simp [State.chargeNotTaken])
        (by simp [State.chargeNotTaken, flagsKeep_refl])
  | reti hw =>
    obtain ⟨u, hu, h⟩ := orFault_next h
    cases h
    unfold returnFromInterrupt at hu
    split at hu
    · cases hu
    · rename_i v w hp
      cases hu
      obtain ⟨-, rfl⟩ := pop_cases hp
      exact ⟨effect_of_eq rfl (by simp [State.charge]), fun h => absurd (hw.symm.trans h) nofun, fun _ => rfl, id,
        ⟨true, rfl⟩, by simp [State.charge, flagsKeep_refl]⟩
  | nop =>
    cases h
    exact answer_of (.refl s) rfl rfl rfl ⟨_, rfl⟩ (by simp [State.charge]) (by simp [State.charge, flagsKeep_refl])
  | halt hw =>
    cases h
    exact ⟨effect_of_eq rfl (by simp [State.charge]), fun _ => rfl, fun h => absurd (hw.symm.trans h) nofun, fun _ => rfl,
      ⟨true, rfl⟩, by simp [State.charge, flagsKeep_refl]⟩
  | setIme v hw =>
    cases h
    exact ⟨effect_of_eq rfl (by simp [State.charge]), fun h => absurd (hw.symm.trans h) nofun, fun _ => rfl, id,
      ⟨true, rfl⟩, by simp [State.charge, flagsKeep_refl]⟩
  | unassigned => cases h

theorem exec_answer {i : Instr} {s t : State} (h : exec i s = .next t) : Answer i s t := form_answer (exec_form i s) h

end Sys2Proof.Machine
end

