-- ==== Sys2Proof/Laws/Fetch.lean ====
section
/-! SUPPORT. The laws of fetching (R91, R92, R103): what `fetchInstr` answers for each row, and the step over it. -/

namespace Sys2Proof.Machine

theorem readByte_setPC (k : Access) (s : State) (v : Word) (a : Word) : readByte k (s.setPC v) a = readByte k s a := rfl

theorem readWord_setPC (k : Access) (s : State) (v : Word) (a : Word) : readWord k (s.setPC v) a = readWord k s a := rfl

theorem fetchByte_ok {s : State} {v : Byte} (h : readByte .fetch s s.pc = .ok v) :
    fetchByte s = .ok (v, s.setPC (s.pc + 1#16)) := by simp only [fetchByte, h]

theorem fetchByte_error {s : State} {e : Fault} (h : readByte .fetch s s.pc = .error e) : fetchByte s = .error e := by
  simp only [fetchByte, h]

/-- An opcode the table does not populate (R103, R215). -/
theorem fetchInstr_unpopulated {s : State} {op : Byte} (h : readByte .fetch s s.pc = .ok op)
    (hp : populated s.cfg op = false) : fetchInstr s = .error (.unknownOpcode op s.pc) := by
  simp only [fetchInstr, fetchByte_ok h, hp]
  rfl

theorem fetchInstr_op0 {s : State} {op : Byte} {i : Instr} (h : readByte .fetch s s.pc = .ok op)
    (hp : populated s.cfg op = true) (hr : lookupRow op = some (.op0 i)) :
    fetchInstr s = .ok (i, s.setPC (s.pc + 1#16)) := by
  simp only [fetchInstr, fetchByte_ok h, hp, hr]
  rfl

theorem fetchInstr_op8 {s : State} {op : Byte} {mk : Byte → Instr} (h : readByte .fetch s s.pc = .ok op)
    (hp : populated s.cfg op = true) (hr : lookupRow op = some (.op8 mk)) :
    fetchInstr s = (readByte .fetch s (s.pc + 1#16)).map fun n => (mk n, s.setPC (s.pc + 2#16)) := by
  have hpc : (s.setPC (s.pc + 1#16)).pc = s.pc + 1#16 := rfl
  have hadd : s.pc + 1#16 + 1#16 = s.pc + 2#16 := by rw [BitVec.add_assoc]; rfl
  rw [fetchInstr, fetchByte_ok h]
  simp only [hp, hr, ↓reduceIte, fetchByte, hpc, readByte_setPC]
  cases readByte .fetch s (s.pc + 1#16) with
  | error e => rfl
  | ok n => simp only [Except.map, hadd]; rfl

theorem fetchInstr_op16 {s : State} {op : Byte} {mk : Word → Instr} (h : readByte .fetch s s.pc = .ok op)
    (hp : populated s.cfg op = true) (hr : lookupRow op = some (.op16 mk)) :
    fetchInstr s = (readWord .fetch s (s.pc + 1#16)).map fun nn => (mk nn, s.setPC (s.pc + 3#16)) := by
  have hpc : (s.setPC (s.pc + 1#16)).pc = s.pc + 1#16 := rfl
  have hadd : s.pc + 1#16 + 2#16 = s.pc + 3#16 := by rw [BitVec.add_assoc]; rfl
  rw [fetchInstr, fetchByte_ok h]
  simp only [hp, hr, ↓reduceIte, fetchWord, hpc, readWord_setPC]
  cases readWord .fetch s (s.pc + 1#16) with
  | error e => rfl
  | ok n => simp only [Except.map, hadd]; rfl

/-- The step of the running processor whose fetch fails ends with that fault (R222). -/
theorem step_of_fetch_error {s : State} {e : Fault} (hr : Running s) (h : fetchInstr s = .error e) :
    step s = .fault e := by
  simp [step, systemStep, hr.1, cpuStep, instructionPhase, hr.2, h, orFault, thenRun]

/-- The step of the running processor over a fetched instruction (R220, R270). -/
theorem step_of_fetch {s t : State} {i : Instr} (hr : Running s) (h : fetchInstr s = .ok (i, t)) :
    step s = thenRun (thenRun (exec i t) interruptPhase) fun u => .next (ppuStep u.cycles u) := by
  simp [step, systemStep, hr.1, cpuStep, instructionPhase, hr.2, h, orFault]

/-- The fetch fault of an immediate ends the step, for every instruction (R92, R222). -/
theorem immediateFaults (i : Instr) : ImmediateFaults i := by
  intro s e hr hp hop he
  apply step_of_fetch_error hr
  rcases rowOf i with ⟨hl, hb⟩ | ⟨mk, n, hl, hb, -⟩ | ⟨mk, nn, hl, hb, -⟩ <;>
    simp only [immediateRead, Instr.length, hb, List.length_cons, List.length_nil, Nat.zero_add, Nat.reduceAdd] at he
  · cases he
  · rw [fetchInstr_op8 hop hp hl]
    cases hn : readByte .fetch s (s.pc + 1#16) <;> simp_all [Except.map]
  · rw [fetchInstr_op16 hop hp hl]
    cases hn : readWord .fetch s (s.pc + 1#16) <;> simp_all [Except.map]

end Sys2Proof.Machine
end

