-- ==== Sys2Proof/Laws/Interrupt.lean ====
section
/-! SUPPORT. The laws of taking interrupts (R234-R238): one dispatch, the phase over a snapshot, and its inversion. -/

namespace Sys2Proof.Machine

/-- The state a dispatch leaves, given the state after its push (R236). -/
def afterDispatch (i : Nat) (u : State) : State :=
  (((clearRequest i u).setPC (vectorOf i)).setIme false).setCycles (u.cycles + dispatchCost)

theorem dispatch_of_push {i : Nat} {s u : State} (h : push s.pc s = .ok u) : dispatch i s = .next (afterDispatch i u) := by
  simp only [dispatch, h, orFault]
  rfl

/-- The inversion of `dispatch`. -/
theorem dispatch_next {i : Nat} {s t : State} (h : dispatch i s = .next t) :
    ∃ u, push s.pc s = .ok u ∧ t = afterDispatch i u := by
  obtain ⟨u, hu, h⟩ := orFault_next h
  cases h
  exact ⟨u, hu, rfl⟩

/-- What a dispatch that answers does to the processor (R235, R236). -/
theorem dispatch_facts {i : Nat} {s t : State} (h : dispatch i s = .next t) :
    t.pc = vectorOf i ∧ t.sp = s.sp - 2#16 ∧ t.ime = false ∧ t.ie = s.ie ∧ t.iflag = s.iflag &&& ~~~(sourceMask i) ∧
    t.halted = s.halted ∧ t.cycles = s.cycles + 12 ∧ RegsKept s t [] ∧ FlagsKept s t ∧ Effect s t := by
  obtain ⟨u, hu, rfl⟩ := dispatch_next h
  obtain ⟨-, hr, hc, -, -⟩ := push_cases hu
  obtain ⟨he, hi⟩ := push_keeps_interrupts hu
  obtain ⟨e, -, hh⟩ := push_effect hu
  refine ⟨rfl, ?_, rfl, he, ?_, hh, ?_, ?_, ?_, e.trans (effect_of_eq rfl id)⟩
  · simp [afterDispatch, clearRequest, State.sp, hr]
  · simp [afterDispatch, clearRequest, hi]
  · simp [afterDispatch, hc, dispatchCost]
  · intro q _
    cases q <;> simp [afterDispatch, clearRequest, State.reg, hr, Regs.get]
  · simp [afterDispatch, clearRequest, FlagsKept, hr]

/-- The phase dispatches the sources of the list that the snapshot names, in the order of the list (R235, R238). -/
theorem serviceSources_eq_fold (pend : Byte) (is : List Nat) (s : State) :
    serviceSources pend is s = (is.filter fun i => pend.getLsbD i).foldl (fun o i => thenRun o (dispatch i)) (.next s) := by
  have stop : ∀ (l : List Nat) (o : Out), (∀ t, o ≠ .next t) → l.foldl (fun o i => thenRun o (dispatch i)) o = o := by
    intro l
    induction l with
    | nil => exact fun _ _ => rfl
    | cons i l ih =>
      intro o ho
      cases o with
      | next t => exact absurd rfl (ho t)
      | fault r => exact ih _ (fun t h => by cases h)
      | refused r => exact ih _ (fun t h => by cases h)
  induction is generalizing s with
  | nil => rfl
  | cons i is ih =>
    unfold serviceSources
    by_cases hp : pend.getLsbD i
    · rw [if_pos hp, List.filter_cons_of_pos (by simpa using hp), List.foldl_cons]
      show thenRun (dispatch i s) _ = _
      cases hd : dispatch i s with
      | next t => simpa [thenRun, hd] using ih t
      | fault r => simp only [thenRun, hd]; exact (stop _ _ (fun t h => by cases h)).symm
      | refused r => simp only [thenRun, hd]; exact (stop _ _ (fun t h => by cases h)).symm
    · rw [if_neg hp, List.filter_cons_of_neg (by simpa using hp)]
      exact ih s

/-- The sources the phase serves are those of the snapshot (R235). -/
theorem servedSources_eq (s : State) :
    servedSources s = [0, 1, 2, 3, 4].filter fun i => (pendingEnabled s).getLsbD i := by
  have low : ∀ i, i ∈ [0, 1, 2, 3, 4] → (0x1F#8).getLsbD i = true := by decide
  unfold servedSources pendingEnabled
  apply List.filter_congr
  intro i hi
  simp only [BitVec.getLsbD_and, low i hi, Bool.and_true]

theorem interruptPhase_eq_fold (s : State) (h : s.ime = true) :
    interruptPhase s = (servedSources s).foldl (fun o i => thenRun o (dispatch i)) (.next s) := by
  rw [interruptPhase, if_pos h, serviceInterrupts, serviceSources_eq_fold, servedSources_eq]

/-- What a chain of dispatches that answers does (R235, R238). -/
theorem dispatches_facts (l : List Nat) {s t : State}
    (h : l.foldl (fun o i => thenRun o (dispatch i)) (.next s) = .next t) :
    t.sp = s.sp - BitVec.ofNat 16 (2 * l.length) ∧ t.cycles = s.cycles + 12 * l.length ∧ t.ie = s.ie ∧
    t.iflag = l.foldl (fun f i => f &&& ~~~(sourceMask i)) s.iflag ∧ t.halted = s.halted ∧ RegsKept s t [] ∧
    FlagsKept s t ∧ Effect s t ∧ (l = [] → t = s) ∧ ∀ n, l.getLast? = some n → t.ime = false ∧ t.pc = vectorOf n := by
  induction l generalizing s with
  | nil =>
    cases h
    exact ⟨by simp, rfl, rfl, rfl, rfl, fun _ _ => rfl, rfl, .refl _, fun _ => rfl, nofun⟩
  | cons i l ih =>
    rw [List.foldl_cons] at h
    cases hd : dispatch i s with
    | next u =>
      rw [thenRun, hd] at h
      obtain ⟨a1, a2, a3, a4, a5, a6, a7, a8, a9, a10⟩ := dispatch_facts hd
      obtain ⟨b1, b2, b3, b4, b5, b6, b7, b8, b9, b10⟩ := ih h
      refine ⟨?_, ?_, b3.trans a4, ?_, b5.trans a6, fun q hq => (b6 q hq).trans (a8 q hq), b7.trans a9, a10.trans b8,
        nofun, ?_⟩
      · rw [b1, a2, BitVec.sub_sub, List.length_cons, ← BitVec.ofNat_add]
        congr 2
        omega
      · rw [b2, a7, List.length_cons]
        omega
      · rw [b4, a5, List.foldl_cons]
      · intro n hn
        cases l with
        | nil =>
          cases hn
          rw [b9 rfl]
          exact ⟨a3, a1⟩
        | cons j l => exact b10 n (by simpa using hn)
    | fault r =>
      rw [thenRun, hd] at h
      have : ∀ (l : List Nat), l.foldl (fun o i => thenRun o (dispatch i)) (.fault r : Out) = .fault r := by
        intro l
        induction l with
        | nil => rfl
        | cons _ _ ih => exact ih
      rw [this] at h
      cases h
    | refused r =>
      rw [thenRun, hd] at h
      have : ∀ (l : List Nat), l.foldl (fun o i => thenRun o (dispatch i)) (.refused r : Out) = .refused r := by
        intro l
        induction l with
        | nil => rfl
        | cons _ _ ih => exact ih
      rw [this] at h
      cases h

/-- The inversion of the interrupt phase: nothing at all, or dispatches that leave IME clear (R234, R235). -/
theorem interruptPhase_next {s t : State} (h : interruptPhase s = .next t) :
    t = s ∨ (s.ime = true ∧ t.ime = false ∧ (servedSources s).length ≤ 5 ∧
      t.cycles = s.cycles + 12 * (servedSources s).length ∧ t.halted = s.halted ∧ RegsKept s t [] ∧ FlagsKept s t ∧
      Effect s t) := by
  by_cases hi : s.ime = true
  · rw [interruptPhase_eq_fold s hi] at h
    obtain ⟨-, hc, -, -, hh, hr, hf, he, h0, hl⟩ := dispatches_facts _ h
    cases hg : (servedSources s).getLast? with
    | none =>
      left
      exact h0 (List.getLast?_eq_none_iff.mp hg)
    | some n =>
      right
      refine ⟨hi, (hl n hg).1, ?_, hc, hh, hr, hf, he⟩
      exact List.length_filter_le _ _
  · rw [interruptPhase, if_neg hi] at h
    cases h
    exact .inl rfl

end Sys2Proof.Machine
end

