-- ==== Sys2Proof/Laws/PerInstr.lean ====
section
/-! SUPPORT. The laws stated for every instruction, one lemma per constructor. -/

namespace Sys2Proof.Laws.EncodingShape

/-- The encoding of an instruction is its opcode byte with no, one or two bytes of immediate, as the table row of that
opcode says, and its opcode is legal exactly if the instruction is well-formed (R93, R103-R106). -/
def Statement (i : Instr) : Prop := RowOf i ∧ legalOpcode i.opcode = i.wf

theorem of (i : Instr) : Statement i := ⟨rowOf i, legalOpcode_opcode i⟩

theorem nop : Statement .nop := of _
theorem ldBCnn (nn : Word) : Statement (.ldBCnn nn) := of _
theorem ldAtBCA : Statement .ldAtBCA := of _
theorem incBC : Statement .incBC := of _
theorem incB : Statement .incB := of _
theorem decB : Statement .decB := of _
theorem ldBn (n : Byte) : Statement (.ldBn n) := of _
theorem rlca : Statement .rlca := of _
theorem ldAtnnSP (nn : Word) : Statement (.ldAtnnSP nn) := of _
theorem addHLBC : Statement .addHLBC := of _
theorem ldAAtBC : Statement .ldAAtBC := of _
theorem decBC : Statement .decBC := of _
theorem incC : Statement .incC := of _
theorem decC : Statement .decC := of _
theorem ldCn (n : Byte) : Statement (.ldCn n) := of _
theorem rrca : Statement .rrca := of _
theorem stop (n : Byte) : Statement (.stop n) := of _
theorem ldDEnn (nn : Word) : Statement (.ldDEnn nn) := of _
theorem ldAtDEA : Statement .ldAtDEA := of _
theorem incDE : Statement .incDE := of _
theorem incD : Statement .incD := of _
theorem decD : Statement .decD := of _
theorem ldDn (n : Byte) : Statement (.ldDn n) := of _
theorem rla : Statement .rla := of _
theorem jre (e : Byte) : Statement (.jre e) := of _
theorem addHLDE : Statement .addHLDE := of _
theorem ldAAtDE : Statement .ldAAtDE := of _
theorem decDE : Statement .decDE := of _
theorem incE : Statement .incE := of _
theorem decE : Statement .decE := of _
theorem ldEn (n : Byte) : Statement (.ldEn n) := of _
theorem rra : Statement .rra := of _
theorem jrNZe (e : Byte) : Statement (.jrNZe e) := of _
theorem ldHLnn (nn : Word) : Statement (.ldHLnn nn) := of _
theorem ldAtHLIncA : Statement .ldAtHLIncA := of _
theorem incHL : Statement .incHL := of _
theorem incH : Statement .incH := of _
theorem decH : Statement .decH := of _
theorem ldHn (n : Byte) : Statement (.ldHn n) := of _
theorem daa : Statement .daa := of _
theorem jrZe (e : Byte) : Statement (.jrZe e) := of _
theorem addHLHL : Statement .addHLHL := of _
theorem ldAAtHLInc : Statement .ldAAtHLInc := of _
theorem decHL : Statement .decHL := of _
theorem incL : Statement .incL := of _
theorem decL : Statement .decL := of _
theorem ldLn (n : Byte) : Statement (.ldLn n) := of _
theorem cpl : Statement .cpl := of _
theorem jrNCe (e : Byte) : Statement (.jrNCe e) := of _
theorem ldSPnn (nn : Word) : Statement (.ldSPnn nn) := of _
theorem ldAtHLDecA : Statement .ldAtHLDecA := of _
theorem incSP : Statement .incSP := of _
theorem incAtHL : Statement .incAtHL := of _
theorem decAtHL : Statement .decAtHL := of _
theorem ldAtHLn (n : Byte) : Statement (.ldAtHLn n) := of _
theorem scf : Statement .scf := of _
theorem jrCe (e : Byte) : Statement (.jrCe e) := of _
theorem addHLSP : Statement .addHLSP := of _
theorem ldAAtHLDec : Statement .ldAAtHLDec := of _
theorem decSP : Statement .decSP := of _
theorem incA : Statement .incA := of _
theorem decA : Statement .decA := of _
theorem ldAn (n : Byte) : Statement (.ldAn n) := of _
theorem ccf : Statement .ccf := of _
theorem ldBB : Statement .ldBB := of _
theorem ldBC : Statement .ldBC := of _
theorem ldBD : Statement .ldBD := of _
theorem ldBE : Statement .ldBE := of _
theorem ldBH : Statement .ldBH := of _
theorem ldBL : Statement .ldBL := of _
theorem ldBAtHL : Statement .ldBAtHL := of _
theorem ldBA : Statement .ldBA := of _
theorem ldCB : Statement .ldCB := of _
theorem ldCC : Statement .ldCC := of _
theorem ldCD : Statement .ldCD := of _
theorem ldCE : Statement .ldCE := of _
theorem ldCH : Statement .ldCH := of _
theorem ldCL : Statement .ldCL := of _
theorem ldCAtHL : Statement .ldCAtHL := of _
theorem ldCA : Statement .ldCA := of _
theorem ldDB : Statement .ldDB := of _
theorem ldDC : Statement .ldDC := of _
theorem ldDD : Statement .ldDD := of _
theorem ldDE : Statement .ldDE := of _
theorem ldDH : Statement .ldDH := of _
theorem ldDL : Statement .ldDL := of _
theorem ldDAtHL : Statement .ldDAtHL := of _
theorem ldDA : Statement .ldDA := of _
theorem ldEB : Statement .ldEB := of _
theorem ldEC : Statement .ldEC := of _
theorem ldED : Statement .ldED := of _
theorem ldEE : Statement .ldEE := of _
theorem ldEH : Statement .ldEH := of _
theorem ldEL : Statement .ldEL := of _
theorem ldEAtHL : Statement .ldEAtHL := of _
theorem ldEA : Statement .ldEA := of _
theorem ldHB : Statement .ldHB := of _
theorem ldHC : Statement .ldHC := of _
theorem ldHD : Statement .ldHD := of _
theorem ldHE : Statement .ldHE := of _
theorem ldHH : Statement .ldHH := of _
theorem ldHL : Statement .ldHL := of _
theorem ldHAtHL : Statement .ldHAtHL := of _
theorem ldHA : Statement .ldHA := of _
theorem ldLB : Statement .ldLB := of _
theorem ldLC : Statement .ldLC := of _
theorem ldLD : Statement .ldLD := of _
theorem ldLE : Statement .ldLE := of _
theorem ldLH : Statement .ldLH := of _
theorem ldLL : Statement .ldLL := of _
theorem ldLAtHL : Statement .ldLAtHL := of _
theorem ldLA : Statement .ldLA := of _
theorem ldAtHLB : Statement .ldAtHLB := of _
theorem ldAtHLC : Statement .ldAtHLC := of _
theorem ldAtHLD : Statement .ldAtHLD := of _
theorem ldAtHLE : Statement .ldAtHLE := of _
theorem ldAtHLH : Statement .ldAtHLH := of _
theorem ldAtHLL : Statement .ldAtHLL := of _
theorem halt : Statement .halt := of _
theorem ldAtHLA : Statement .ldAtHLA := of _
theorem ldAB : Statement .ldAB := of _
theorem ldAC : Statement .ldAC := of _
theorem ldAD : Statement .ldAD := of _
theorem ldAE : Statement .ldAE := of _
theorem ldAH : Statement .ldAH := of _
theorem ldAL : Statement .ldAL := of _
theorem ldAAtHL : Statement .ldAAtHL := of _
theorem ldAA : Statement .ldAA := of _
theorem addAB : Statement .addAB := of _
theorem addAC : Statement .addAC := of _
theorem addAD : Statement .addAD := of _
theorem addAE : Statement .addAE := of _
theorem addAH : Statement .addAH := of _
theorem addAL : Statement .addAL := of _
theorem addAAtHL : Statement .addAAtHL := of _
theorem addAA : Statement .addAA := of _
theorem adcAB : Statement .adcAB := of _
theorem adcAC : Statement .adcAC := of _
theorem adcAD : Statement .adcAD := of _
theorem adcAE : Statement .adcAE := of _
theorem adcAH : Statement .adcAH := of _
theorem adcAL : Statement .adcAL := of _
theorem adcAAtHL : Statement .adcAAtHL := of _
theorem adcAA : Statement .adcAA := of _
theorem subB : Statement .subB := of _
theorem subC : Statement .subC := of _
theorem subD : Statement .subD := of _
theorem subE : Statement .subE := of _
theorem subH : Statement .subH := of _
theorem subL : Statement .subL := of _
theorem subAtHL : Statement .subAtHL := of _
theorem subA : Statement .subA := of _
theorem sbcAB : Statement .sbcAB := of _
theorem sbcAC : Statement .sbcAC := of _
theorem sbcAD : Statement .sbcAD := of _
theorem sbcAE : Statement .sbcAE := of _
theorem sbcAH : Statement .sbcAH := of _
theorem sbcAL : Statement .sbcAL := of _
theorem sbcAAtHL : Statement .sbcAAtHL := of _
theorem sbcAA : Statement .sbcAA := of _
theorem andB : Statement .andB := of _
theorem andC : Statement .andC := of _
theorem andD : Statement .andD := of _
theorem andE : Statement .andE := of _
theorem andH : Statement .andH := of _
theorem andL : Statement .andL := of _
theorem andAtHL : Statement .andAtHL := of _
theorem andA : Statement .andA := of _
theorem xorB : Statement .xorB := of _
theorem xorC : Statement .xorC := of _
theorem xorD : Statement .xorD := of _
theorem xorE : Statement .xorE := of _
theorem xorH : Statement .xorH := of _
theorem xorL : Statement .xorL := of _
theorem xorAtHL : Statement .xorAtHL := of _
theorem xorA : Statement .xorA := of _
theorem orB : Statement .orB := of _
theorem orC : Statement .orC := of _
theorem orD : Statement .orD := of _
theorem orE : Statement .orE := of _
theorem orH : Statement .orH := of _
theorem orL : Statement .orL := of _
theorem orAtHL : Statement .orAtHL := of _
theorem orA : Statement .orA := of _
theorem cpB : Statement .cpB := of _
theorem cpC : Statement .cpC := of _
theorem cpD : Statement .cpD := of _
theorem cpE : Statement .cpE := of _
theorem cpH : Statement .cpH := of _
theorem cpL : Statement .cpL := of _
theorem cpAtHL : Statement .cpAtHL := of _
theorem cpA : Statement .cpA := of _
theorem retNZ : Statement .retNZ := of _
theorem popBC : Statement .popBC := of _
theorem jpNZnn (nn : Word) : Statement (.jpNZnn nn) := of _
theorem jpnn (nn : Word) : Statement (.jpnn nn) := of _
theorem callNZnn (nn : Word) : Statement (.callNZnn nn) := of _
theorem pushBC : Statement .pushBC := of _
theorem addAn (n : Byte) : Statement (.addAn n) := of _
theorem rst00 : Statement .rst00 := of _
theorem retZ : Statement .retZ := of _
theorem ret : Statement .ret := of _
theorem jpZnn (nn : Word) : Statement (.jpZnn nn) := of _
theorem callZnn (nn : Word) : Statement (.callZnn nn) := of _
theorem callnn (nn : Word) : Statement (.callnn nn) := of _
theorem adcAn (n : Byte) : Statement (.adcAn n) := of _
theorem rst08 : Statement .rst08 := of _
theorem retNC : Statement .retNC := of _
theorem popDE : Statement .popDE := of _
theorem jpNCnn (nn : Word) : Statement (.jpNCnn nn) := of _
theorem callNCnn (nn : Word) : Statement (.callNCnn nn) := of _
theorem pushDE : Statement .pushDE := of _
theorem subn (n : Byte) : Statement (.subn n) := of _
theorem rst10 : Statement .rst10 := of _
theorem retC : Statement .retC := of _
theorem reti : Statement .reti := of _
theorem jpCnn (nn : Word) : Statement (.jpCnn nn) := of _
theorem callCnn (nn : Word) : Statement (.callCnn nn) := of _
theorem sbcAn (n : Byte) : Statement (.sbcAn n) := of _
theorem rst18 : Statement .rst18 := of _
theorem ldhAtnA (n : Byte) : Statement (.ldhAtnA n) := of _
theorem popHL : Statement .popHL := of _
theorem ldAtCA : Statement .ldAtCA := of _
theorem pushHL : Statement .pushHL := of _
theorem andn (n : Byte) : Statement (.andn n) := of _
theorem rst20 : Statement .rst20 := of _
theorem addSPe (e : Byte) : Statement (.addSPe e) := of _
theorem jpHL : Statement .jpHL := of _
theorem ldAtnnA (nn : Word) : Statement (.ldAtnnA nn) := of _
theorem xorn (n : Byte) : Statement (.xorn n) := of _
theorem rst28 : Statement .rst28 := of _
theorem ldhAAtn (n : Byte) : Statement (.ldhAAtn n) := of _
theorem popAF : Statement .popAF := of _
theorem ldAAtC : Statement .ldAAtC := of _
theorem di : Statement .di := of _
theorem pushAF : Statement .pushAF := of _
theorem orn (n : Byte) : Statement (.orn n) := of _
theorem rst30 : Statement .rst30 := of _
theorem ldHLSPe (e : Byte) : Statement (.ldHLSPe e) := of _
theorem ldSPHL : Statement .ldSPHL := of _
theorem ldAAtnn (nn : Word) : Statement (.ldAAtnn nn) := of _
theorem ei : Statement .ei := of _
theorem cpn (n : Byte) : Statement (.cpn n) := of _
theorem rst38 : Statement .rst38 := of _
theorem cbPrefix : Statement .cbPrefix := of _
theorem illegalD3 : Statement .illegalD3 := of _
theorem illegalDB : Statement .illegalDB := of _
theorem illegalDD : Statement .illegalDD := of _
theorem illegalE3 : Statement .illegalE3 := of _
theorem illegalE4 : Statement .illegalE4 := of _
theorem illegalEB : Statement .illegalEB := of _
theorem illegalEC : Statement .illegalEC := of _
theorem illegalED : Statement .illegalED := of _
theorem illegalF4 : Statement .illegalF4 := of _
theorem illegalFC : Statement .illegalFC := of _
theorem illegalFD : Statement .illegalFD := of _

end Sys2Proof.Laws.EncodingShape
end

