-- ==== Sys2Proof/Laws/Ppu.lean ====
section
/-! SUPPORT. The laws of the picture unit: what a line advance, several of them and a whole step do (R252-R255), and that
the renderer reads VRAM only (R256). -/

namespace Sys2Proof.Machine

/-- How many of the next `k` lines are line 144 (R254). -/
def vblanksIn (ly k : Nat) : Nat := (ly + k + 10) / 154 - (ly + 10) / 154

/-- One line advance, as one update (R253, R254). -/
theorem advanceLine_eq (s : State) : advanceLine s =
    { s with
      ppu := { s.ppu with ly := BitVec.ofNat 8 ((s.ppu.ly.toNat + 1) % 154) }
      iflag := if (s.ppu.ly.toNat + 1) % 154 = 144 then s.iflag ||| 1#8 else s.iflag
      frames := if (s.ppu.ly.toNat + 1) % 154 = 144 then s.frames + 1 else s.frames } := by
  simp only [advanceLine]
  split <;> rfl

/-- What any number of line advances writes: LY, IF bit 0 and the frame count. -/
theorem advanceLines_shape (k : Nat) (s : State) : ∃ ly f n,
    advanceLines k s = { s with ppu := { s.ppu with ly := ly }, iflag := f, frames := n } ∧
    (f = s.iflag ∨ f = s.iflag ||| 1#8) ∧ (k = 0 ∧ ly = s.ppu.ly ∨ ly.toNat < 154) := by
  induction k generalizing s with
  | zero => exact ⟨_, _, _, rfl, .inl rfl, .inl ⟨rfl, rfl⟩⟩
  | succ k ih =>
    obtain ⟨ly, f, n, h, hf, hl⟩ := ih (advanceLine s)
    refine ⟨ly, f, n, by rw [advanceLines, h, advanceLine_eq], ?_, .inr ?_⟩
    · rw [advanceLine_eq] at hf
      simp only at hf
      split at hf <;> rcases hf with rfl | rfl <;> simp [BitVec.or_assoc]
    · rcases hl with ⟨-, hl⟩ | hl
      · rw [hl, advanceLine_eq]
        simp
        omega
      · exact hl

/-- The line, the request and the frames after `k` line advances (R253, R254). -/
theorem advanceLines_eq (k : Nat) (s : State) (h : s.ppu.ly.toNat < 154) : advanceLines k s =
    { s with
      ppu := { s.ppu with ly := BitVec.ofNat 8 ((s.ppu.ly.toNat + k) % 154) }
      iflag := if vblanksIn s.ppu.ly.toNat k = 0 then s.iflag else s.iflag ||| 1#8
      frames := s.frames + vblanksIn s.ppu.ly.toNat k } := by
  induction k generalizing s with
  | zero =>
    have hl : BitVec.ofNat 8 (s.ppu.ly.toNat % 154) = s.ppu.ly := by
      rw [Nat.mod_eq_of_lt h]
      simp
    simp [advanceLines, vblanksIn, hl]
  | succ k ih =>
    have hl : (advanceLine s).ppu.ly.toNat = (s.ppu.ly.toNat + 1) % 154 := by
      rw [advanceLine_eq]
      simp
      omega
    rw [advanceLines, ih _ (by omega), hl]
    have hline : ((s.ppu.ly.toNat + 1) % 154 + k) % 154 = (s.ppu.ly.toNat + (k + 1)) % 154 := by omega
    rw [hline, advanceLine_eq]
    by_cases hv : (s.ppu.ly.toNat + 1) % 154 = 144
    · have h1 : vblanksIn s.ppu.ly.toNat (k + 1) = vblanksIn ((s.ppu.ly.toNat + 1) % 154) k + 1 := by
        unfold vblanksIn
        omega
      simp [hv, h1, BitVec.or_assoc]
      omega
    · have h1 : vblanksIn s.ppu.ly.toNat (k + 1) = vblanksIn ((s.ppu.ly.toNat + 1) % 154) k := by
        unfold vblanksIn
        omega
      simp [hv, h1]

/-- A rendered line changes one row of the frame buffer only (R261). -/
theorem renderLine_shape (ly : Nat) (s : State) : ∃ fb, renderLine ly s = { s with fb := fb } := by
  unfold renderLine
  split
  · exact ⟨_, rfl⟩
  · exact ⟨_, rfl⟩

/-- What a picture unit step writes (R252, R265): LY, the accumulator, IF bit 0, the frame count, the frame buffer. -/
theorem ppuStep_shape (n : Nat) (s : State) : ∃ ly f m fb,
    ppuStep n s = { s with ppu := { s.ppu with ly := ly, acc := (s.ppu.acc + n) % 456 }, iflag := f, frames := m, fb := fb } ∧
    (f = s.iflag ∨ f = s.iflag ||| 1#8) ∧ (s.ppu.ly.toNat < 154 → ly.toNat < 154) := by
  unfold ppuStep
  obtain ⟨ly, f, m, h, hf, hl⟩ :=
    advanceLines_shape ((s.ppu.acc + n) / 456) (s.setPpu { s.ppu with acc := (s.ppu.acc + n) % 456 })
  have hl' : s.ppu.ly.toNat < 154 → ly.toNat < 154 := fun hs => by
    rcases hl with ⟨-, hl⟩ | hl
    · rw [hl]
      exact hs
    · exact hl
  simp only [h]
  split
  · obtain ⟨fb, hfb⟩ := renderLine_shape ly.toNat { s with
      ppu := { s.ppu with ly := ly, acc := (s.ppu.acc + n) % 456 }, iflag := f, frames := m }
    exact ⟨ly, f, m, fb, hfb, hf, hl'⟩
  · exact ⟨ly, f, m, _, rfl, hf, hl'⟩

/-- The line, the accumulator, the request and the frames after a picture unit step (R252-R254). -/
theorem ppuStep_counts (n : Nat) (s : State) (h : s.ppu.ly.toNat < 154) :
    let t := ppuStep n s
    let lines := (s.ppu.acc + n) / 456
    t.ppu.ly.toNat = (s.ppu.ly.toNat + lines) % 154 ∧ t.ppu.acc = (s.ppu.acc + n) % 456 ∧
    t.frames = s.frames + vblanksIn s.ppu.ly.toNat lines ∧
    t.iflag = (if vblanksIn s.ppu.ly.toNat lines = 0 then s.iflag else s.iflag ||| 1#8) := by
  intro t lines
  have key : ∃ fb, t = { advanceLines lines (s.setPpu { s.ppu with acc := (s.ppu.acc + n) % 456 }) with fb := fb } := by
    simp only [t, ppuStep]
    split
    · exact renderLine_shape _ _
    · exact ⟨_, rfl⟩
  obtain ⟨fb, hfb⟩ := key
  rw [advanceLines_eq lines (s.setPpu { s.ppu with acc := (s.ppu.acc + n) % 456 }) h] at hfb
  rw [hfb]
  refine ⟨?_, rfl, rfl, rfl⟩
  simp
  omega

/-- Which row a picture unit step writes (R255, R261). -/
theorem ppuStep_fb (n : Nat) (s : State) :
    let t := ppuStep n s
    (renderDue s.ppu.acc ((s.ppu.acc + n) / 456) t = true → ∃ h : t.ppu.ly.toNat < 144,
      t.fb = s.fb.set t.ppu.ly.toNat (renderedLine t t.ppu.ly.toNat) h) ∧
    (renderDue s.ppu.acc ((s.ppu.acc + n) / 456) t = false → t.fb = s.fb) := by
  intro t
  obtain ⟨ly, f, m, h, -⟩ :=
    advanceLines_shape ((s.ppu.acc + n) / 456) (s.setPpu { s.ppu with acc := (s.ppu.acc + n) % 456 })
  have key : t = if renderDue s.ppu.acc ((s.ppu.acc + n) / 456) { s with
        ppu := { s.ppu with ly := ly, acc := (s.ppu.acc + n) % 456 }, iflag := f, frames := m } then
      renderLine ly.toNat { s with
        ppu := { s.ppu with ly := ly, acc := (s.ppu.acc + n) % 456 }, iflag := f, frames := m }
    else { s with ppu := { s.ppu with ly := ly, acc := (s.ppu.acc + n) % 456 }, iflag := f, frames := m } := by
    simp only [t, ppuStep, h]
    rfl
  by_cases hd : renderDue s.ppu.acc ((s.ppu.acc + n) / 456) { s with
      ppu := { s.ppu with ly := ly, acc := (s.ppu.acc + n) % 456 }, iflag := f, frames := m } = true
  · rw [if_pos hd] at key
    have hly : ly.toNat < 144 := by simp_all [renderDue]
    simp only [renderLine, hly, ↓reduceDIte] at key
    rw [key]
    exact ⟨fun _ => ⟨hly, rfl⟩, fun hf => Bool.noConfusion (hd.symm.trans hf)⟩
  · rw [if_neg hd] at key
    rw [key]
    exact ⟨fun ht => absurd ht hd, fun _ => rfl⟩

/-- A byte of VRAM the renderer looks at is the byte the bus reads (R256). -/
theorem vramByte_eq_read (s : State) (a : Nat) (h : 0x8000 ≤ a) (h' : a < 0xA000) (k : Access) :
    readByte k s (BitVec.ofNat 16 a) = .ok (vramByte s a) := by
  have hn : (BitVec.ofNat 16 a).toNat = a := by
    simp
    omega
  have : owner s.cfg (BitVec.ofNat 16 a) = some .vram := by
    rcases owner_cases s.cfg (BitVec.ofNat 16 a) with c | c | c | c | c | c | c | c | c | c | c | c | c <;>
      rw [hn] at c <;> first | exact c.2.2 | omega
  rw [readByte_of_owner this]
  simp only [deviceRead, hn]
  rfl

end Sys2Proof.Machine
end

