-- ==== Sys2Proof/Laws/Step.lean ====
section
/-! SUPPORT. The inversion of a step: what the instruction part, the interrupt phase and the picture unit did when the step
answered (R220, R270). -/

namespace Sys2Proof.Machine

/-- A fetch changes PC only. -/
theorem fetchInstr_pc {s t : State} {i : Instr} (h : fetchInstr s = .ok (i, t)) : ∃ pc, t = s.setPC pc := by
  cases hb : readByte .fetch s s.pc with
  | error e =>
    rw [fetchInstr, fetchByte_error hb] at h
    cases h
  | ok op =>
    by_cases hp : populated s.cfg op = true
    · obtain ⟨r, hr⟩ := Option.isSome_iff_exists.mp (lookupRow_isSome op)
      cases r with
      | op0 i =>
        rw [fetchInstr_op0 hb hp hr] at h
        cases h
        exact ⟨_, rfl⟩
      | op8 mk =>
        rw [fetchInstr_op8 hb hp hr] at h
        cases hn : readByte .fetch s (s.pc + 1#16) <;> rw [hn] at h <;> cases h
        exact ⟨_, rfl⟩
      | op16 mk =>
        rw [fetchInstr_op16 hb hp hr] at h
        cases hn : readWord .fetch s (s.pc + 1#16) <;> rw [hn] at h <;> cases h
        exact ⟨_, rfl⟩
    · rw [fetchInstr_unpopulated hb (by simpa using hp)] at h
      cases h

/-- What the instruction part of a step can have done: the halted processor counts 4 cycles; the running one ran an
instruction from the state with PC moved (R211, R220). -/
theorem instructionPhase_next {s u : State} (h : instructionPhase s = .next u) :
    (s.halted = true ∧ u = s.setCycles 4) ∨
    (s.halted = false ∧ ∃ i pc, fetchInstr s = .ok (i, s.setPC pc) ∧ exec i (s.setPC pc) = .next u) := by
  unfold instructionPhase at h
  split at h
  · rename_i hh
    cases h
    exact .inl ⟨hh, rfl⟩
  · rename_i hh
    obtain ⟨⟨i, w⟩, hf, he⟩ := orFault_next h
    obtain ⟨pc, rfl⟩ := fetchInstr_pc hf
    exact .inr ⟨by simpa using hh, i, pc, hf, he⟩

/-- A step that answers: its three parts (R220, R270). -/
theorem step_next {s t : State} (h : step s = .next t) :
    s.fault = none ∧ ∃ u v, instructionPhase s = .next u ∧ interruptPhase u = .next v ∧ t = ppuStep v.cycles v := by
  unfold step systemStep at h
  split at h
  · cases h
  · rename_i hf
    obtain ⟨v, hv, ht⟩ := thenRun_next h
    obtain ⟨u, hu, hi⟩ := thenRun_next hv
    cases ht
    exact ⟨hf, u, v, hu, hi, rfl⟩

/-- The effect of the instruction part. -/
theorem instructionPhase_effect {s u : State} (h : instructionPhase s = .next u) : Effect s u := by
  rcases instructionPhase_next h with ⟨-, rfl⟩ | ⟨-, i, pc, -, he⟩
  · exact effect_of_eq rfl id
  · exact (effect_of_eq (s := s) (t := s.setPC pc) rfl id).trans (exec_answer he).effect

/-- The effect of the interrupt phase. -/
theorem interruptPhase_effect {s t : State} (h : interruptPhase s = .next t) : Effect s t := by
  rcases interruptPhase_next h with rfl | ⟨-, -, -, -, -, -, -, he⟩
  · exact .refl t
  · exact he

/-- A step that answers: the processor's effect, then the picture unit. -/
theorem step_effect {s t : State} (h : step s = .next t) : ∃ v, Effect s v ∧ t = ppuStep v.cycles v := by
  obtain ⟨-, u, v, hu, hv, rfl⟩ := step_next h
  exact ⟨v, (instructionPhase_effect hu).trans (interruptPhase_effect hv), rfl⟩

set_option maxRecDepth 20000 in
/-- The default costs of the legal opcodes lie in 4..24 (R111). -/
theorem defaultCost_bounds (op : Byte) (taken : Bool) (h : legalOpcode op = true) :
    4 ≤ defaultCost op taken ∧ defaultCost op taken ≤ 24 := by
  have all : ∀ n : Fin 256, ∀ b, legalOpcode (BitVec.ofFin n) = true →
      4 ≤ defaultCost (BitVec.ofFin n) b ∧ defaultCost (BitVec.ofFin n) b ≤ 24 := by decide
  exact all op.toFin taken h

/-- No parameter changes the cost of `JP nn` (R6). -/
@[simp] theorem cycleCost_jpnn (cfg : Config) (taken : Bool) : cycleCost cfg 0xC3 taken = 16 := by
  cases taken <;> rfl

/-- The costs of the legal opcodes lie in 4..24 under parameters in the source's range (R111, R302). -/
theorem cycleCost_bounds {cfg : Config} (hc : Config.wf cfg = true) (op : Byte) (taken : Bool) (h : legalOpcode op = true) :
    4 ≤ cycleCost cfg op taken ∧ cycleCost cfg op taken ≤ 24 := by
  unfold cycleCost
  split
  · exact defaultCost_bounds op taken h
  split
  · rename_i o ho
    have hw : CycleOverride.wf o = true := by
      simp only [Config.wf, Bool.and_eq_true, List.all_eq_true] at hc
      exact hc.2 o (List.mem_of_find?_eq_some ho)
    simp only [CycleOverride.wf, Bool.and_eq_true, decide_eq_true_eq] at hw
    split <;> omega
  · exact defaultCost_bounds op taken h

/-- An instruction that answers is one the map spells. -/
theorem wf_of_exec_next {i : Instr} {s t : State} (h : exec i s = .next t) : i.wf = true := by
  cases i <;> first | rfl | cases h

end Sys2Proof.Machine
end

