-- ==== Sys2Proof/Tests/Slice0.lean ====
section
/-! SUPPORT. The tests: ill-formed terms, a word for every row written out bit by bit from the spec's encodings, one-step
tests from the vectors of spec/95_test_vectors.md, and a witness for the hypotheses of every obligation. No expected value
comes from the model. -/

namespace Sys2Proof.Tests

open Sys2Proof Sys2Proof.Machine

/-! ### Well-formedness: an ill-formed term for each check -/

theorem smoke_prefix_byte_refused : Instr.wf .cbPrefix = false := by decide

theorem smoke_illegal_bytes_refused :
    [Instr.illegalD3, .illegalDB, .illegalDD, .illegalE3, .illegalE4, .illegalEB, .illegalEC, .illegalED, .illegalF4,
      .illegalFC, .illegalFD].all (fun i => !i.wf) = true := by decide

theorem smoke_short_image_refused :
    Config.wf { Config.default with romLen := 0x147 } = false ∧ Config.wf { Config.default with romLen := 0x148 } = true := by
  decide

theorem smoke_cost_out_of_range_refused :
    [(⟨0x00, 3, 4⟩ : CycleOverride), ⟨0x00, 25, 4⟩, ⟨0x00, 4, 3⟩, ⟨0x00, 4, 25⟩].all (fun o =>
      !Config.wf { Config.default with cycleOverrides := [o] }) = true := by decide

theorem smoke_memory_forms_refused :
    Memory.wf [(1, 5), (0, 5)] = false ∧ Memory.wf [(1, 5), (1, 6)] = false ∧ Memory.wf [(1, 0)] = false ∧
    Memory.wf [(0x10000, 5)] = false := by decide

/-! ### Decoding: one word for each row, from R94-R102 (bits written x y z), and its encoding back -/

/-- The bytes decode to the instruction, with nothing left, and are its encoding. -/
def spells (bytes : List Byte) (i : Instr) : Bool :=
  encode i == bytes && match decode bytes with
    | .ok (j, []) => j == i
    | _ => false

theorem test_decode_ld_b_from_all :
    spells [0b01000000] .ldBB && spells [0b01000001] .ldBC && spells [0b01000010] .ldBD &&
    spells [0b01000011] .ldBE && spells [0b01000100] .ldBH && spells [0b01000101] .ldBL &&
    spells [0b01000110] .ldBAtHL && spells [0b01000111] .ldBA = true := by decide

theorem test_decode_ld_c_from_all :
    spells [0b01001000] .ldCB && spells [0b01001001] .ldCC && spells [0b01001010] .ldCD &&
    spells [0b01001011] .ldCE && spells [0b01001100] .ldCH && spells [0b01001101] .ldCL &&
    spells [0b01001110] .ldCAtHL && spells [0b01001111] .ldCA = true := by decide

theorem test_decode_ld_d_from_all :
    spells [0b01010000] .ldDB && spells [0b01010001] .ldDC && spells [0b01010010] .ldDD &&
    spells [0b01010011] .ldDE && spells [0b01010100] .ldDH && spells [0b01010101] .ldDL &&
    spells [0b01010110] .ldDAtHL && spells [0b01010111] .ldDA = true := by decide

theorem test_decode_ld_e_from_all :
    spells [0b01011000] .ldEB && spells [0b01011001] .ldEC && spells [0b01011010] .ldED &&
    spells [0b01011011] .ldEE && spells [0b01011100] .ldEH && spells [0b01011101] .ldEL &&
    spells [0b01011110] .ldEAtHL && spells [0b01011111] .ldEA = true := by decide

theorem test_decode_ld_h_from_all :
    spells [0b01100000] .ldHB && spells [0b01100001] .ldHC && spells [0b01100010] .ldHD &&
    spells [0b01100011] .ldHE && spells [0b01100100] .ldHH && spells [0b01100101] .ldHL &&
    spells [0b01100110] .ldHAtHL && spells [0b01100111] .ldHA = true := by decide

theorem test_decode_ld_l_from_all :
    spells [0b01101000] .ldLB && spells [0b01101001] .ldLC && spells [0b01101010] .ldLD &&
    spells [0b01101011] .ldLE && spells [0b01101100] .ldLH && spells [0b01101101] .ldLL &&
    spells [0b01101110] .ldLAtHL && spells [0b01101111] .ldLA = true := by decide

theorem test_decode_ld_athl_from_all :
    spells [0b01110000] .ldAtHLB && spells [0b01110001] .ldAtHLC && spells [0b01110010] .ldAtHLD &&
    spells [0b01110011] .ldAtHLE && spells [0b01110100] .ldAtHLH && spells [0b01110101] .ldAtHLL &&
    spells [0b01110110] .halt && spells [0b01110111] .ldAtHLA = true := by decide

theorem test_decode_ld_a_from_all :
    spells [0b01111000] .ldAB && spells [0b01111001] .ldAC && spells [0b01111010] .ldAD &&
    spells [0b01111011] .ldAE && spells [0b01111100] .ldAH && spells [0b01111101] .ldAL &&
    spells [0b01111110] .ldAAtHL && spells [0b01111111] .ldAA = true := by decide

theorem test_decode_ld_r_n :
    spells [0b00000110, 0x5A] (.ldBn 0x5A) && spells [0b00001110, 0x5A] (.ldCn 0x5A) &&
    spells [0b00010110, 0x5A] (.ldDn 0x5A) && spells [0b00011110, 0x5A] (.ldEn 0x5A) &&
    spells [0b00100110, 0x5A] (.ldHn 0x5A) && spells [0b00101110, 0x5A] (.ldLn 0x5A) &&
    spells [0b00110110, 0x5A] (.ldAtHLn 0x5A) && spells [0b00111110, 0x5A] (.ldAn 0x5A) = true := by decide

theorem test_decode_adda_from_all :
    spells [0b10000000] .addAB && spells [0b10000001] .addAC && spells [0b10000010] .addAD &&
    spells [0b10000011] .addAE && spells [0b10000100] .addAH && spells [0b10000101] .addAL &&
    spells [0b10000110] .addAAtHL && spells [0b10000111] .addAA && spells [0b11000110, 0x5A] (.addAn 0x5A) = true := by decide

theorem test_decode_adca_from_all :
    spells [0b10001000] .adcAB && spells [0b10001001] .adcAC && spells [0b10001010] .adcAD &&
    spells [0b10001011] .adcAE && spells [0b10001100] .adcAH && spells [0b10001101] .adcAL &&
    spells [0b10001110] .adcAAtHL && spells [0b10001111] .adcAA && spells [0b11001110, 0x5A] (.adcAn 0x5A) = true := by decide

theorem test_decode_sub_from_all :
    spells [0b10010000] .subB && spells [0b10010001] .subC && spells [0b10010010] .subD &&
    spells [0b10010011] .subE && spells [0b10010100] .subH && spells [0b10010101] .subL &&
    spells [0b10010110] .subAtHL && spells [0b10010111] .subA && spells [0b11010110, 0x5A] (.subn 0x5A) = true := by decide

theorem test_decode_sbca_from_all :
    spells [0b10011000] .sbcAB && spells [0b10011001] .sbcAC && spells [0b10011010] .sbcAD &&
    spells [0b10011011] .sbcAE && spells [0b10011100] .sbcAH && spells [0b10011101] .sbcAL &&
    spells [0b10011110] .sbcAAtHL && spells [0b10011111] .sbcAA && spells [0b11011110, 0x5A] (.sbcAn 0x5A) = true := by decide

theorem test_decode_and_from_all :
    spells [0b10100000] .andB && spells [0b10100001] .andC && spells [0b10100010] .andD &&
    spells [0b10100011] .andE && spells [0b10100100] .andH && spells [0b10100101] .andL &&
    spells [0b10100110] .andAtHL && spells [0b10100111] .andA && spells [0b11100110, 0x5A] (.andn 0x5A) = true := by decide

theorem test_decode_xor_from_all :
    spells [0b10101000] .xorB && spells [0b10101001] .xorC && spells [0b10101010] .xorD &&
    spells [0b10101011] .xorE && spells [0b10101100] .xorH && spells [0b10101101] .xorL &&
    spells [0b10101110] .xorAtHL && spells [0b10101111] .xorA && spells [0b11101110, 0x5A] (.xorn 0x5A) = true := by decide

theorem test_decode_or_from_all :
    spells [0b10110000] .orB && spells [0b10110001] .orC && spells [0b10110010] .orD && spells [0b10110011] .orE &&
    spells [0b10110100] .orH && spells [0b10110101] .orL && spells [0b10110110] .orAtHL &&
    spells [0b10110111] .orA && spells [0b11110110, 0x5A] (.orn 0x5A) = true := by decide

theorem test_decode_cp_from_all :
    spells [0b10111000] .cpB && spells [0b10111001] .cpC && spells [0b10111010] .cpD && spells [0b10111011] .cpE &&
    spells [0b10111100] .cpH && spells [0b10111101] .cpL && spells [0b10111110] .cpAtHL &&
    spells [0b10111111] .cpA && spells [0b11111110, 0x5A] (.cpn 0x5A) = true := by decide

theorem test_decode_inc_dec_r :
    spells [0b00000100] .incB && spells [0b00001100] .incC && spells [0b00010100] .incD &&
    spells [0b00011100] .incE && spells [0b00100100] .incH && spells [0b00101100] .incL &&
    spells [0b00110100] .incAtHL && spells [0b00111100] .incA && spells [0b00000101] .decB &&
    spells [0b00001101] .decC && spells [0b00010101] .decD && spells [0b00011101] .decE &&
    spells [0b00100101] .decH && spells [0b00101101] .decL && spells [0b00110101] .decAtHL &&
    spells [0b00111101] .decA = true := by decide

theorem test_decode_pairs :
    spells [0b00000001, 0x34, 0x12] (.ldBCnn 0x1234) && spells [0b00010001, 0x34, 0x12] (.ldDEnn 0x1234) &&
    spells [0b00100001, 0x34, 0x12] (.ldHLnn 0x1234) && spells [0b00110001, 0x34, 0x12] (.ldSPnn 0x1234) &&
    spells [0b00001001] .addHLBC && spells [0b00011001] .addHLDE && spells [0b00101001] .addHLHL &&
    spells [0b00111001] .addHLSP && spells [0b00000011] .incBC && spells [0b00010011] .incDE &&
    spells [0b00100011] .incHL && spells [0b00110011] .incSP && spells [0b00001011] .decBC &&
    spells [0b00011011] .decDE && spells [0b00101011] .decHL && spells [0b00111011] .decSP = true := by decide

theorem test_decode_indirect_loads :
    spells [0b00000010] .ldAtBCA && spells [0b00010010] .ldAtDEA && spells [0b00100010] .ldAtHLIncA &&
    spells [0b00110010] .ldAtHLDecA && spells [0b00001010] .ldAAtBC && spells [0b00011010] .ldAAtDE &&
    spells [0b00101010] .ldAAtHLInc && spells [0b00111010] .ldAAtHLDec &&
    spells [0b11100000, 0x5A] (.ldhAtnA 0x5A) && spells [0b11110000, 0x5A] (.ldhAAtn 0x5A) &&
    spells [0b11100010] .ldAtCA && spells [0b11110010] .ldAAtC &&
    spells [0b11101010, 0x34, 0x12] (.ldAtnnA 0x1234) && spells [0b11111010, 0x34, 0x12] (.ldAAtnn 0x1234) &&
    spells [0b00001000, 0x34, 0x12] (.ldAtnnSP 0x1234) = true := by decide

theorem test_decode_accumulator_and_flags :
    spells [0b00000111] .rlca && spells [0b00001111] .rrca && spells [0b00010111] .rla && spells [0b00011111] .rra &&
    spells [0b00100111] .daa && spells [0b00101111] .cpl && spells [0b00110111] .scf && spells [0b00111111] .ccf = true := by decide

theorem test_decode_stack_and_sp :
    spells [0b11000101] .pushBC && spells [0b11010101] .pushDE && spells [0b11100101] .pushHL &&
    spells [0b11110101] .pushAF && spells [0b11000001] .popBC && spells [0b11010001] .popDE &&
    spells [0b11100001] .popHL && spells [0b11110001] .popAF && spells [0b11101000, 0x5A] (.addSPe 0x5A) &&
    spells [0b11111000, 0x5A] (.ldHLSPe 0x5A) && spells [0b11111001] .ldSPHL = true := by decide

theorem test_decode_jumps :
    spells [0b11000011, 0x34, 0x12] (.jpnn 0x1234) && spells [0b11101001] .jpHL &&
    spells [0b00011000, 0x5A] (.jre 0x5A) && spells [0b11000010, 0x34, 0x12] (.jpNZnn 0x1234) &&
    spells [0b11001010, 0x34, 0x12] (.jpZnn 0x1234) && spells [0b11010010, 0x34, 0x12] (.jpNCnn 0x1234) &&
    spells [0b11011010, 0x34, 0x12] (.jpCnn 0x1234) && spells [0b00100000, 0x5A] (.jrNZe 0x5A) &&
    spells [0b00101000, 0x5A] (.jrZe 0x5A) && spells [0b00110000, 0x5A] (.jrNCe 0x5A) &&
    spells [0b00111000, 0x5A] (.jrCe 0x5A) = true := by decide

theorem test_decode_calls_and_returns :
    spells [0b11001101, 0x34, 0x12] (.callnn 0x1234) && spells [0b11001001] .ret && spells [0b11011001] .reti &&
    spells [0b11000100, 0x34, 0x12] (.callNZnn 0x1234) && spells [0b11001100, 0x34, 0x12] (.callZnn 0x1234) &&
    spells [0b11010100, 0x34, 0x12] (.callNCnn 0x1234) && spells [0b11011100, 0x34, 0x12] (.callCnn 0x1234) &&
    spells [0b11000000] .retNZ && spells [0b11001000] .retZ && spells [0b11010000] .retNC &&
    spells [0b11011000] .retC = true := by decide

theorem test_decode_rst :
    spells [0b11000111] .rst00 && spells [0b11001111] .rst08 && spells [0b11010111] .rst10 &&
    spells [0b11011111] .rst18 && spells [0b11100111] .rst20 && spells [0b11101111] .rst28 &&
    spells [0b11110111] .rst30 && spells [0b11111111] .rst38 = true := by decide

theorem test_decode_system :
    spells [0b00000000] .nop && spells [0b00010000, 0x5A] (.stop 0x5A) && spells [0b11110011] .di &&
    spells [0b11111011] .ei = true := by decide

theorem test_decode_unassigned :
    spells [0b11001011] .cbPrefix && spells [0b11010011] .illegalD3 && spells [0b11011011] .illegalDB &&
    spells [0b11011101] .illegalDD && spells [0b11100011] .illegalE3 && spells [0b11100100] .illegalE4 &&
    spells [0b11101011] .illegalEB && spells [0b11101100] .illegalEC && spells [0b11101101] .illegalED &&
    spells [0b11110100] .illegalF4 && spells [0b11111100] .illegalFC && spells [0b11111101] .illegalFD = true := by decide

/-! ### One step, from spec/95_test_vectors.md -/

/-- Bytes put at addresses of the reset machine. -/
def memoryWith (cells : List (Nat × Byte)) : State :=
  cells.foldl (fun s c => placeByte s (BitVec.ofNat 16 c.1) c.2) State.reset

/-- The reset machine with bytes put at addresses and PC there. -/
def machineAt (pc : Word) (cells : List (Nat × Byte)) : State := (memoryWith cells).setPC pc

/-- The processor step answers, and the answer satisfies the test. -/
def answers (s : State) (test : State → Bool) : Bool :=
  match cpuStep s with
  | .next t => test t
  | _ => false

/-- The processor step ends with the fault. -/
def stopsWith (s : State) (r : Fault) : Bool :=
  match cpuStep s with
  | .fault x => x == r
  | _ => false

/-- A read of the address answers the value. -/
def holds (t : State) (a : Word) (v : Byte) : Bool :=
  match readByte .read t a with
  | .ok x => x == v
  | _ => false

/-- The state with F replaced. -/
def withF (f : Byte) (s : State) : State := { s with regs := { s.regs with f := f } }

/-- V-load8-01: LD B,C. -/
theorem test_load8_01 :
    answers (machineAt 0x0200 [(0x0200, 0x41)] |>.setReg .b 0x12 |>.setReg .c 0x34) (fun t =>
      t.pair .bc == 0x3434 && t.pc == 0x0201 && t.cycles == 4) = true := by decide

/-- V-load8-04: LD L,(HL): L overwritten after address use. -/
theorem test_load8_04 :
    answers (machineAt 0x0200 [(0x0200, 0x6E), (0xC010, 0x99)] |>.setPair .hl 0xC010) (fun t =>
      t.pair .hl == 0xC099 && t.pc == 0x0201 && t.cycles == 8) = true := by decide

/-- V-load8-05: LD A,(HL) unmapped 0xA000. -/
theorem test_load8_05 :
    stopsWith (machineAt 0x0200 [(0x0200, 0x7E)] |>.setPair .hl 0xA000) (.busUnmapped 0xA000 .read) = true := by decide

/-- V-load8-06: LD (HL),H. -/
theorem test_load8_06 :
    answers (machineAt 0x0200 [(0x0200, 0x74)] |>.setPair .hl 0xC001) (fun t =>
      t.pc == 0x0201 && holds t 0xC001 0xC0 && t.cycles == 8) = true := by decide

/-- V-load8-07: LD (HL),A into ROM. -/
theorem test_load8_07 :
    stopsWith (machineAt 0x0200 [(0x0200, 0x77)] |>.setPair .hl 0x2000 |>.setReg .a 0x01) (.romWrite 0x2000) = true := by decide

/-- V-load8-09: LD (HL),n into VRAM. -/
theorem test_load8_09 :
    answers (machineAt 0x0200 [(0x0200, 0x36), (0x0201, 0x01)] |>.setPair .hl 0x9800) (fun t =>
      t.pc == 0x0202 && holds t 0x9800 0x01 && t.cycles == 12) = true := by decide

/-- V-load8-10: LD A,(BC) from ROM. -/
theorem test_load8_10 :
    answers (machineAt 0x0200 [(0x0200, 0x0A)] |>.setPair .bc 0x0200) (fun t =>
      t.reg .a == 0x0A && t.pc == 0x0201 && t.cycles == 8) = true := by decide

/-- V-load8-13: LD (DE),A to IE. -/
theorem test_load8_13 :
    answers (machineAt 0x0200 [(0x0200, 0x12)] |>.setPair .de 0xFFFF |>.setReg .a 0x1F) (fun t =>
      t.pc == 0x0201 && t.ie == 0x1F && t.cycles == 8) = true := by decide

/-- V-load8-14: LD A,(nn) reads LY. -/
theorem test_load8_14 :
    answers (machineAt 0x0200 [(0x0200, 0xFA), (0x0201, 0x44), (0x0202, 0xFF), (0xFF44, 0x90)]) (fun t =>
      t.reg .a == 0x90 && t.pc == 0x0203 && t.cycles == 16) = true := by decide

/-- V-load8-16: LD (nn),A to LY (ignored). -/
theorem test_load8_16 :
    answers (machineAt 0x0200 [(0x0200, 0xEA), (0x0201, 0x44), (0x0202, 0xFF), (0xFF44, 0x10)] |>.setReg .a 0x55) (fun t =>
      t.pc == 0x0203 && t.cycles == 16) = true := by decide

/-- V-load8-17: LDH A,(0x0F) reads IF. -/
theorem test_load8_17 :
    answers (machineAt 0x0200 [(0x0200, 0xF0), (0x0201, 0x0F)] |>.setIflag 0x01) (fun t =>
      t.reg .a == 0x01 && t.pc == 0x0202 && t.cycles == 12) = true := by decide

/-- V-load8-20: LDH (0x40),A. -/
theorem test_load8_20 :
    answers (machineAt 0x0200 [(0x0200, 0xE0), (0x0201, 0x40)] |>.setReg .a 0x91) (fun t =>
      t.pc == 0x0202 && holds t 0xFF40 0x91 && t.cycles == 12) = true := by decide

/-- V-load8-21: LDH (0x41),A STAT low bits discarded. -/
theorem test_load8_21 :
    answers (machineAt 0x0200 [(0x0200, 0xE0), (0x0201, 0x41)] |>.setReg .a 0xFF) (fun t =>
      t.pc == 0x0202 && holds t 0xFF41 0xFE && t.cycles == 12) = true := by decide

/-- V-load8-22: LD A,(C). -/
theorem test_load8_22 :
    answers (machineAt 0x0200 [(0x0200, 0xF2), (0xFF47, 0xE4)] |>.setReg .c 0x47) (fun t =>
      t.reg .a == 0xE4 && t.pc == 0x0201 && t.cycles == 8) = true := by decide

/-- V-load8-23: LD (C),A. -/
theorem test_load8_23 :
    answers (machineAt 0x0200 [(0x0200, 0xE2)] |>.setReg .c 0x42 |>.setReg .a 0x10) (fun t =>
      t.pc == 0x0201 && holds t 0xFF42 0x10 && t.cycles == 8) = true := by decide

/-- V-load8-25: LD A,(HL+) HL wraps 0xFFFF. -/
theorem test_load8_25 :
    answers (machineAt 0x0200 [(0x0200, 0x2A)] |>.setPair .hl 0xFFFF |>.setIe 0x04) (fun t =>
      t.reg .a == 0x04 && t.pair .hl == 0x0000 && t.pc == 0x0201 && t.cycles == 8) = true := by decide

/-- V-load8-26: LD A,(HL-). -/
theorem test_load8_26 :
    answers (machineAt 0x0200 [(0x0200, 0x3A), (0xC001, 0x44)] |>.setPair .hl 0xC001) (fun t =>
      t.reg .a == 0x44 && t.pair .hl == 0xC000 && t.pc == 0x0201 && t.cycles == 8) = true := by decide

/-- V-load8-27: LD (HL+),A. -/
theorem test_load8_27 :
    answers (machineAt 0x0200 [(0x0200, 0x22)] |>.setPair .hl 0xC000 |>.setReg .a 0x42) (fun t =>
      t.pair .hl == 0xC001 && t.pc == 0x0201 && holds t 0xC000 0x42 && t.cycles == 8) = true := by decide

/-- V-load8-28: LD (HL-),A. -/
theorem test_load8_28 :
    answers (machineAt 0x0200 [(0x0200, 0x32)] |>.setPair .hl 0x9FFF |>.setReg .a 0x5A) (fun t =>
      t.pair .hl == 0x9FFE && t.pc == 0x0201 && holds t 0x9FFF 0x5A && t.cycles == 8) = true := by decide

/-- V-load16-03: LD SP,HL. -/
theorem test_load16_03 :
    answers (machineAt 0x0200 [(0x0200, 0xF9)] |>.setPair .hl 0xDFF0) (fun t =>
      t.sp == 0xDFF0 && t.pc == 0x0201 && t.cycles == 8) = true := by decide

/-- V-load16-04: LD (nn),SP. -/
theorem test_load16_04 :
    answers (machineAt 0x0200 [(0x0200, 0x08), (0x0201, 0x00), (0x0202, 0xC1)] |>.setSP 0xFFF8) (fun t =>
      t.pc == 0x0203 && holds t 0xC100 0xF8 && holds t 0xC101 0xFF && t.cycles == 20) = true := by decide

/-- V-load16-05: LD (nn),SP straddling WRAM end. -/
theorem test_load16_05 :
    stopsWith (machineAt 0x0200 [(0x0200, 0x08), (0x0201, 0xFF), (0x0202, 0xDF)] |>.setSP 0x1234) (.deviceRange 0xE000) = true := by decide

/-- V-load16-06: PUSH BC. -/
theorem test_load16_06 :
    answers (machineAt 0x0200 [(0x0200, 0xC5)] |>.setSP 0xE000 |>.setPair .bc 0x1234) (fun t =>
      t.sp == 0xDFFE && t.pc == 0x0201 && holds t 0xDFFE 0x34 && holds t 0xDFFF 0x12 && t.cycles == 16) = true := by decide

/-- V-load16-07: PUSH AF. -/
theorem test_load16_07 :
    answers (withF 0xB0 (machineAt 0x0200 [(0x0200, 0xF5)] |>.setSP 0xE000 |>.setReg .a 0x12)) (fun t =>
      t.sp == 0xDFFE && t.pc == 0x0201 && holds t 0xDFFE 0xB0 && holds t 0xDFFF 0x12 && t.regs.f == 0xB0 && t.cycles == 16) = true := by decide

/-- V-load16-09: POP DE. -/
theorem test_load16_09 :
    answers (machineAt 0x0200 [(0x0200, 0xD1), (0xDFFE, 0x34), (0xDFFF, 0x12)] |>.setSP 0xDFFE) (fun t =>
      t.pair .de == 0x1234 && t.sp == 0xE000 && t.pc == 0x0201 && t.cycles == 12) = true := by decide

/-- V-load16-10: POP AF masks low nibble. -/
theorem test_load16_10 :
    answers (machineAt 0x0200 [(0x0200, 0xF1), (0xDFFE, 0xFF), (0xDFFF, 0x12)] |>.setSP 0xDFFE) (fun t =>
      t.reg .a == 0x12 && t.regs.f == 0xF0 && t.sp == 0xE000 && t.pc == 0x0201 && t.cycles == 12) = true := by decide

/-- V-load16-11: LD HL,SP+2. -/
theorem test_load16_11 :
    answers (machineAt 0x0200 [(0x0200, 0xF8), (0x0201, 0x02)] |>.setSP 0xFFF8) (fun t =>
      t.pair .hl == 0xFFFA && t.pc == 0x0202 && t.cycles == 12) = true := by decide

/-- V-load16-12: LD HL,SP-1 from 0x0001. -/
theorem test_load16_12 :
    answers (machineAt 0x0200 [(0x0200, 0xF8), (0x0201, 0xFF)] |>.setSP 0x0001 |>.setPair .hl 0xFFFF) (fun t =>
      t.regs.f == 0x30 && t.pair .hl == 0x0000 && t.pc == 0x0202 && t.cycles == 12) = true := by decide

/-- V-alu8-01: ADD A,B -> zero, H, C. -/
theorem test_alu8_01 :
    answers (machineAt 0x0200 [(0x0200, 0x80)] |>.setReg .a 0x3A |>.setReg .b 0xC6) (fun t =>
      t.reg .a == 0x00 && t.regs.f == 0xB0 && t.pc == 0x0201 && t.cycles == 4) = true := by decide

/-- V-alu8-03: ADD A,0 with A=0xFF (C1: C must be 0). -/
theorem test_alu8_03 :
    answers (withF 0xF0 (machineAt 0x0200 [(0x0200, 0xC6), (0x0201, 0x00)] |>.setReg .a 0xFF)) (fun t =>
      t.regs.f == 0x00 && t.pc == 0x0202 && t.cycles == 8) = true := by decide

/-- V-alu8-05: ADD A,(HL). -/
theorem test_alu8_05 :
    answers (machineAt 0x0200 [(0x0200, 0x86), (0xC000, 0x01)] |>.setReg .a 0x0F |>.setPair .hl 0xC000) (fun t =>
      t.reg .a == 0x10 && t.regs.f == 0x20 && t.pc == 0x0201 && t.cycles == 8) = true := by decide

/-- V-alu8-06: ADC A,E. -/
theorem test_alu8_06 :
    answers (withF 0x10 (machineAt 0x0200 [(0x0200, 0x8B)] |>.setReg .a 0xE1 |>.setReg .e 0x0F)) (fun t =>
      t.reg .a == 0xF1 && t.regs.f == 0x20 && t.pc == 0x0201 && t.cycles == 4) = true := by decide

/-- V-alu8-09: SUB 0x01 from 0 (borrow). -/
theorem test_alu8_09 :
    answers (machineAt 0x0200 [(0x0200, 0xD6), (0x0201, 0x01)] |>.setReg .a 0x00) (fun t =>
      t.reg .a == 0xFF && t.regs.f == 0x70 && t.pc == 0x0202 && t.cycles == 8) = true := by decide

/-- V-alu8-11: SBC A,H. -/
theorem test_alu8_11 :
    answers (withF 0x10 (machineAt 0x0200 [(0x0200, 0x9C)] |>.setReg .a 0x3B |>.setReg .h 0x2A)) (fun t =>
      t.reg .a == 0x10 && t.regs.f == 0x40 && t.pc == 0x0201 && t.cycles == 4) = true := by decide

/-- V-alu8-12: SBC A,0xFF with carry. -/
theorem test_alu8_12 :
    answers (withF 0x10 (machineAt 0x0200 [(0x0200, 0xDE), (0x0201, 0xFF)] |>.setReg .a 0x00)) (fun t =>
      t.regs.f == 0xF0 && t.pc == 0x0202 && t.cycles == 8) = true := by decide

/-- V-alu8-13: AND L. -/
theorem test_alu8_13 :
    answers (machineAt 0x0200 [(0x0200, 0xA5)] |>.setReg .a 0x5A |>.setReg .l 0x3F) (fun t =>
      t.reg .a == 0x1A && t.regs.f == 0x20 && t.pc == 0x0201 && t.cycles == 4) = true := by decide

/-- V-alu8-14: AND 0 clears C. -/
theorem test_alu8_14 :
    answers (withF 0x10 (machineAt 0x0200 [(0x0200, 0xE6), (0x0201, 0x00)] |>.setReg .a 0xFF)) (fun t =>
      t.reg .a == 0x00 && t.regs.f == 0xA0 && t.pc == 0x0202 && t.cycles == 8) = true := by decide

/-- V-alu8-15: XOR A (source 0xAF). -/
theorem test_alu8_15 :
    answers (withF 0x70 (machineAt 0x0200 [(0x0200, 0xAF)] |>.setReg .a 0x5A)) (fun t =>
      t.reg .a == 0x00 && t.regs.f == 0x80 && t.pc == 0x0201 && t.cycles == 4) = true := by decide

/-- V-alu8-17: OR 0x03. -/
theorem test_alu8_17 :
    answers (machineAt 0x0200 [(0x0200, 0xF6), (0x0201, 0x03)] |>.setReg .a 0x5A) (fun t =>
      t.reg .a == 0x5B && t.pc == 0x0202 && t.cycles == 8) = true := by decide

/-- V-alu8-18: OR A with A=0. -/
theorem test_alu8_18 :
    answers (withF 0x30 (machineAt 0x0200 [(0x0200, 0xB7)] |>.setReg .a 0x00)) (fun t =>
      t.regs.f == 0x80 && t.pc == 0x0201 && t.cycles == 4) = true := by decide

/-- V-alu8-19: CP B. -/
theorem test_alu8_19 :
    answers (machineAt 0x0200 [(0x0200, 0xB8)] |>.setReg .a 0x3C |>.setReg .b 0x2F) (fun t =>
      t.regs.f == 0x60 && t.pc == 0x0201 && t.cycles == 4) = true := by decide

/-- V-alu8-20: CP 0x40 (A < n). -/
theorem test_alu8_20 :
    answers (machineAt 0x0200 [(0x0200, 0xFE), (0x0201, 0x40)] |>.setReg .a 0x3C) (fun t =>
      t.regs.f == 0x50 && t.pc == 0x0202 && t.cycles == 8) = true := by decide

/-- V-alu8-22: INC A 0xFF keeps C. -/
theorem test_alu8_22 :
    answers (withF 0x10 (machineAt 0x0200 [(0x0200, 0x3C)] |>.setReg .a 0xFF)) (fun t =>
      t.reg .a == 0x00 && t.regs.f == 0xB0 && t.pc == 0x0201 && t.cycles == 4) = true := by decide

/-- V-alu8-24: INC (HL). -/
theorem test_alu8_24 :
    answers (machineAt 0x0200 [(0x0200, 0x34), (0xC000, 0x0F)] |>.setPair .hl 0xC000) (fun t =>
      t.regs.f == 0x20 && t.pc == 0x0201 && holds t 0xC000 0x10 && t.cycles == 12) = true := by decide

/-- V-alu8-25: INC (HL) on ROM. -/
theorem test_alu8_25 :
    stopsWith (machineAt 0x0200 [(0x0200, 0x34)] |>.setPair .hl 0x0000) (.romWrite 0x0000) = true := by decide

/-- V-alu8-27: DEC C 0x00 wraps, keeps C. -/
theorem test_alu8_27 :
    answers (withF 0x10 (machineAt 0x0200 [(0x0200, 0x0D)] |>.setReg .c 0x00)) (fun t =>
      t.regs.f == 0x70 && t.pair .bc == 0x00FF && t.pc == 0x0201 && t.cycles == 4) = true := by decide

/-- V-alu8-28: DEC (HL). -/
theorem test_alu8_28 :
    answers (machineAt 0x0200 [(0x0200, 0x35), (0xC000, 0x00)] |>.setPair .hl 0xC000) (fun t =>
      t.regs.f == 0x60 && t.pc == 0x0201 && holds t 0xC000 0xFF && t.cycles == 12) = true := by decide

/-- V-alu8-29: RLCA. -/
theorem test_alu8_29 :
    answers (machineAt 0x0200 [(0x0200, 0x07)] |>.setReg .a 0x85) (fun t =>
      t.reg .a == 0x0B && t.regs.f == 0x10 && t.pc == 0x0201 && t.cycles == 4) = true := by decide

/-- V-alu8-31: RRCA. -/
theorem test_alu8_31 :
    answers (machineAt 0x0200 [(0x0200, 0x0F)] |>.setReg .a 0x3B) (fun t =>
      t.reg .a == 0x9D && t.regs.f == 0x10 && t.pc == 0x0201 && t.cycles == 4) = true := by decide

/-- V-alu8-32: RLA. -/
theorem test_alu8_32 :
    answers (withF 0x10 (machineAt 0x0200 [(0x0200, 0x17)] |>.setReg .a 0x95)) (fun t =>
      t.reg .a == 0x2B && t.pc == 0x0201 && t.regs.f == 0x10 && t.cycles == 4) = true := by decide

/-- V-alu8-34: RRA. -/
theorem test_alu8_34 :
    answers (machineAt 0x0200 [(0x0200, 0x1F)] |>.setReg .a 0x81) (fun t =>
      t.reg .a == 0x40 && t.regs.f == 0x10 && t.pc == 0x0201 && t.cycles == 4) = true := by decide

/-- V-alu8-35: DAA after 0x45+0x38. -/
theorem test_alu8_35 :
    answers (machineAt 0x0200 [(0x0200, 0x27)] |>.setReg .a 0x7D) (fun t =>
      t.reg .a == 0x83 && t.pc == 0x0201 && t.cycles == 4) = true := by decide

/-- V-alu8-36: DAA 0x9A. -/
theorem test_alu8_36 :
    answers (machineAt 0x0200 [(0x0200, 0x27)] |>.setReg .a 0x9A) (fun t =>
      t.reg .a == 0x00 && t.regs.f == 0x90 && t.pc == 0x0201 && t.cycles == 4) = true := by decide

/-- V-alu8-38: DAA after subtract with C and H. -/
theorem test_alu8_38 :
    answers (withF 0x70 (machineAt 0x0200 [(0x0200, 0x27)] |>.setReg .a 0xCF)) (fun t =>
      t.reg .a == 0x69 && t.regs.f == 0x50 && t.pc == 0x0201 && t.cycles == 4) = true := by decide

/-- V-alu8-39: CPL. -/
theorem test_alu8_39 :
    answers (machineAt 0x0200 [(0x0200, 0x2F)] |>.setReg .a 0x35) (fun t =>
      t.reg .a == 0xCA && t.regs.f == 0x60 && t.pc == 0x0201 && t.cycles == 4) = true := by decide

/-- V-alu8-40: SCF. -/
theorem test_alu8_40 :
    answers (withF 0xE0 (machineAt 0x0200 [(0x0200, 0x37)])) (fun t =>
      t.regs.f == 0x90 && t.pc == 0x0201 && t.cycles == 4) = true := by decide

/-- V-alu8-41: CCF. -/
theorem test_alu8_41 :
    answers (withF 0x90 (machineAt 0x0200 [(0x0200, 0x3F)])) (fun t =>
      t.regs.f == 0x80 && t.pc == 0x0201 && t.cycles == 4) = true := by decide

/-- V-alu16-02: INC SP wraps. -/
theorem test_alu16_02 :
    answers (withF 0x80 (machineAt 0x0200 [(0x0200, 0x33)] |>.setSP 0xFFFF)) (fun t =>
      t.sp == 0x0000 && t.pc == 0x0201 && t.regs.f == 0x80 && t.cycles == 8) = true := by decide

/-- V-alu16-04: DEC HL 0 wraps. -/
theorem test_alu16_04 :
    answers (machineAt 0x0200 [(0x0200, 0x2B)] |>.setPair .hl 0x0000) (fun t =>
      t.pair .hl == 0xFFFF && t.pc == 0x0201 && t.cycles == 8) = true := by decide

/-- V-alu16-06: ADD HL,HL. -/
theorem test_alu16_06 :
    answers (machineAt 0x0200 [(0x0200, 0x29)] |>.setPair .hl 0x8A23) (fun t =>
      t.regs.f == 0x30 && t.pair .hl == 0x1446 && t.pc == 0x0201 && t.cycles == 8) = true := by decide

/-- V-alu16-07: ADD HL,SP keeps Z. -/
theorem test_alu16_07 :
    answers (withF 0x80 (machineAt 0x0200 [(0x0200, 0x39)] |>.setPair .hl 0xFFFF |>.setSP 0x0001)) (fun t =>
      t.regs.f == 0xB0 && t.pair .hl == 0x0000 && t.pc == 0x0201 && t.cycles == 8) = true := by decide

/-- V-alu16-10: ADD SP,-1 from 1. -/
theorem test_alu16_10 :
    answers (machineAt 0x0200 [(0x0200, 0xE8), (0x0201, 0xFF)] |>.setSP 0x0001) (fun t =>
      t.regs.f == 0x30 && t.sp == 0x0000 && t.pc == 0x0202 && t.cycles == 16) = true := by decide

/-- V-alu16-11: ADD SP,-128. -/
theorem test_alu16_11 :
    answers (machineAt 0x0200 [(0x0200, 0xE8), (0x0201, 0x80)] |>.setSP 0xC080) (fun t =>
      t.regs.f == 0x10 && t.sp == 0xC000 && t.pc == 0x0202 && t.cycles == 16) = true := by decide

/-- V-control-01: JP 0x0200 (source scenario, code at 0100). -/
theorem test_control_01 :
    answers (machineAt 0x0100 [(0x0100, 0xC3), (0x0101, 0x00), (0x0102, 0x02)]) (fun t =>
      t.pc == 0x0200 && t.cycles == 16) = true := by decide

/-- V-control-03: JP Z not taken. -/
theorem test_control_03 :
    answers (withF 0x00 (machineAt 0x0200 [(0x0200, 0xCA), (0x0201, 0x50), (0x0202, 0x01)])) (fun t =>
      t.pc == 0x0203 && t.regs.f == 0x00 && t.cycles == 12) = true := by decide

/-- V-control-04: JP NC taken. -/
theorem test_control_04 :
    answers (withF 0x00 (machineAt 0x0200 [(0x0200, 0xD2), (0x0201, 0x00), (0x0202, 0x30)])) (fun t =>
      t.pc == 0x3000 && t.regs.f == 0x00 && t.cycles == 16) = true := by decide

/-- V-control-05: JP HL. -/
theorem test_control_05 :
    answers (machineAt 0x0200 [(0x0200, 0xE9)] |>.setPair .hl 0xC000) (fun t =>
      t.pc == 0xC000 && t.cycles == 4) = true := by decide

/-- V-control-07: JR -2 (to itself). -/
theorem test_control_07 :
    answers (machineAt 0x0200 [(0x0200, 0x18), (0x0201, 0xFE)]) (fun t =>
      t.pc == 0x0200 && t.cycles == 12) = true := by decide

/-- V-control-08: JR +0x10 across 0xFFFF (code in HRAM). -/
theorem test_control_08 :
    answers ({ machineAt 0xFFF0 [] with cfg := { Config.default with mapHram := true }, mem := [(0xFFF0, 0x18), (0xFFF1, 0x10)] }) (fun t =>
      t.pc == 0x0002 && t.cycles == 12) = true := by decide

/-- V-control-10: JR NZ taken back. -/
theorem test_control_10 :
    answers (withF 0x00 (machineAt 0x0200 [(0x0200, 0x20), (0x0201, 0xFC)])) (fun t =>
      t.pc == 0x01FE && t.regs.f == 0x00 && t.cycles == 12) = true := by decide

/-- V-control-11: JR NZ not taken. -/
theorem test_control_11 :
    answers (withF 0x80 (machineAt 0x0200 [(0x0200, 0x20), (0x0201, 0xFC)])) (fun t =>
      t.pc == 0x0202 && t.regs.f == 0x80 && t.cycles == 8) = true := by decide

/-- V-control-13: CALL 0x0300. -/
theorem test_control_13 :
    answers (machineAt 0x0200 [(0x0200, 0xCD), (0x0201, 0x00), (0x0202, 0x03)] |>.setSP 0xE000) (fun t =>
      t.sp == 0xDFFE && t.pc == 0x0300 && holds t 0xDFFE 0x03 && holds t 0xDFFF 0x02 && t.cycles == 24) = true := by decide

/-- V-control-14: CALL C not taken. -/
theorem test_control_14 :
    answers (machineAt 0x0200 [(0x0200, 0xDC), (0x0201, 0x00), (0x0202, 0x03)] |>.setSP 0xE000) (fun t =>
      t.pc == 0x0203 && t.cycles == 12) = true := by decide

/-- V-control-16: RET. -/
theorem test_control_16 :
    answers (machineAt 0x0200 [(0x0200, 0xC9), (0xDFFE, 0x03), (0xDFFF, 0x02)] |>.setSP 0xDFFE) (fun t =>
      t.sp == 0xE000 && t.pc == 0x0203 && t.cycles == 16) = true := by decide

/-- V-control-17: RET NZ not taken. -/
theorem test_control_17 :
    answers (withF 0x80 (machineAt 0x0200 [(0x0200, 0xC0)] |>.setSP 0xDFFE)) (fun t =>
      t.pc == 0x0201 && t.regs.f == 0x80 && t.cycles == 8) = true := by decide

/-- V-control-18: RET Z taken. -/
theorem test_control_18 :
    answers (withF 0x80 (machineAt 0x0200 [(0x0200, 0xC8), (0xDFFE, 0x34), (0xDFFF, 0x12)] |>.setSP 0xDFFE)) (fun t =>
      t.sp == 0xE000 && t.pc == 0x1234 && t.regs.f == 0x80 && t.cycles == 20) = true := by decide

/-- V-control-20: RETI with pending enabled request. -/
theorem test_control_20 :
    answers (machineAt 0x0200 [(0x0200, 0xD9), (0xDFFC, 0x50), (0xDFFD, 0x01)] |>.setSP 0xDFFC |>.setIe 0x01 |>.setIflag 0x01) (fun t =>
      t.pc == 0x0040 && t.iflag == 0x00 && t.cycles == 28) = true := by decide

/-- V-control-21: RST 0x08. -/
theorem test_control_21 :
    answers (machineAt 0x0200 [(0x0200, 0xCF)] |>.setSP 0xE000) (fun t =>
      t.sp == 0xDFFE && t.pc == 0x0008 && holds t 0xDFFE 0x01 && holds t 0xDFFF 0x02 && t.cycles == 16) = true := by decide

/-- V-system-01: NOP. -/
theorem test_system_01 :
    answers (machineAt 0x0200 [(0x0200, 0x00)]) (fun t =>
      t.pc == 0x0201 && t.cycles == 4) = true := by decide

/-- V-system-02: HALT. -/
theorem test_system_02 :
    answers (machineAt 0x0200 [(0x0200, 0x76)]) (fun t =>
      t.pc == 0x0201 && t.halted && t.cycles == 4) = true := by decide

/-- V-system-03: HALT with IME=1 and pending request. -/
theorem test_system_03 :
    answers (machineAt 0x0200 [(0x0200, 0x76)] |>.setIme true |>.setIe 0x01 |>.setIflag 0x01 |>.setSP 0xE000) (fun t =>
      t.sp == 0xDFFE && t.pc == 0x0040 && !t.ime && t.halted && t.iflag == 0x00 && holds t 0xDFFE 0x01 && holds t 0xDFFF 0x02 && t.cycles == 16) = true := by decide

/-- V-system-04: STOP (default IMPL_OPCODES: refused). -/
theorem test_system_04 :
    stopsWith (machineAt 0x0200 [(0x0200, 0x10), (0x0201, 0x00)]) (.unknownOpcode 0x10 0x0200) = true := by decide

/-- V-system-05: STOP with FULL_WITH_STOP. -/
theorem test_system_05 :
    answers ({ machineAt 0x0200 [(0x0200, 0x10), (0x0201, 0x00)] with cfg := { Config.default with implOpcodes := .fullWithStop } }) (fun t =>
      t.pc == 0x0202 && t.halted && t.cycles == 4) = true := by decide

/-- V-system-06: DI with pending request. -/
theorem test_system_06 :
    answers (machineAt 0x0200 [(0x0200, 0xF3)] |>.setIme true |>.setIe 0x01 |>.setIflag 0x01 |>.setSP 0xE000) (fun t =>
      t.pc == 0x0201 && !t.ime && t.cycles == 4) = true := by decide

/-- V-system-07: EI with pending request. -/
theorem test_system_07 :
    answers (machineAt 0x0200 [(0x0200, 0xFB)] |>.setIe 0x01 |>.setIflag 0x01 |>.setSP 0xE000) (fun t =>
      t.sp == 0xDFFE && t.pc == 0x0040 && t.iflag == 0x00 && holds t 0xDFFE 0x01 && holds t 0xDFFF 0x02 && t.cycles == 16) = true := by decide

/-- V-system-08: EI with request not enabled. -/
theorem test_system_08 :
    answers (machineAt 0x0200 [(0x0200, 0xFB)] |>.setIe 0x02 |>.setIflag 0x01 |>.setSP 0xE000) (fun t =>
      t.pc == 0x0201 && t.ime && t.cycles == 4) = true := by decide

/-- V-system-10: 0xCB prefix. -/
theorem test_system_10 :
    stopsWith (machineAt 0x0200 [(0x0200, 0xCB), (0x0201, 0x37)]) (.unknownOpcode 0xCB 0x0200) = true := by decide

/-- V-interrupt-01: NOP, IME=1, IE=IF=0x1F: five dispatches. -/
theorem test_interrupt_01 :
    answers (machineAt 0x0200 [(0x0200, 0x00)] |>.setIme true |>.setIe 0x1F |>.setIflag 0x1F |>.setSP 0xE000) (fun t =>
      t.sp == 0xDFF6 && t.pc == 0x0060 && !t.ime && t.iflag == 0x00 && holds t 0xDFF6 0x58 && holds t 0xDFF8 0x50 && holds t 0xDFFA 0x48 && holds t 0xDFFC 0x40 && holds t 0xDFFE 0x01 && holds t 0xDFFF 0x02 && t.cycles == 64) = true := by decide

/-- V-interrupt-02: NOP, IME=1, IE=0x04, IF=0x06: only Timer. -/
theorem test_interrupt_02 :
    answers (machineAt 0x0200 [(0x0200, 0x00)] |>.setIme true |>.setIe 0x04 |>.setIflag 0x06 |>.setSP 0xE000) (fun t =>
      t.sp == 0xDFFE && t.pc == 0x0050 && !t.ime && t.iflag == 0x02 && holds t 0xDFFE 0x01 && holds t 0xDFFF 0x02 && t.cycles == 16) = true := by decide

/-- V-interrupt-03: NOP, IME=1, IF bits 5-7 only. -/
theorem test_interrupt_03 :
    answers (machineAt 0x0200 [(0x0200, 0x00)] |>.setIme true |>.setIe 0xFF |>.setIflag 0xE0 |>.setSP 0xE000) (fun t =>
      t.pc == 0x0201 && t.cycles == 4) = true := by decide

/-- V-interrupt-04: NOP, IME=1, pending, SP=0 push faults. -/
theorem test_interrupt_04 :
    stopsWith (machineAt 0x0200 [(0x0200, 0x00)] |>.setIme true |>.setIe 0x01 |>.setIflag 0x01) (.busUnmapped 0xFFFE .write) = true := by decide

/-- V-interrupt-05: illegal opcode with IME=1 and a pending request: fault, no dispatch. -/
theorem test_interrupt_05 :
    stopsWith (machineAt 0x0200 [(0x0200, 0xD3)] |>.setIme true |>.setIe 0x01 |>.setIflag 0x01 |>.setSP 0xE000) (.unknownOpcode 0xD3 0x0200) = true := by decide

/-- V-interrupt-06: LDH (0x0F),A raises a request and dispatches it. -/
theorem test_interrupt_06 :
    answers (machineAt 0x0200 [(0x0200, 0xE0), (0x0201, 0x0F)] |>.setReg .a 0x10 |>.setIme true |>.setIe 0x10 |>.setSP 0xE000) (fun t =>
      t.sp == 0xDFFE && t.pc == 0x0060 && !t.ime && holds t 0xDFFE 0x02 && holds t 0xDFFF 0x02 && t.cycles == 24) = true := by decide

/-- V-memory-01: LD A,(0xFF0F) reads all 8 IF bits. -/
theorem test_memory_01 :
    answers (machineAt 0x0200 [(0x0200, 0xFA), (0x0201, 0x0F), (0x0202, 0xFF)] |>.setIflag 0xE1) (fun t =>
      t.reg .a == 0xE1 && t.pc == 0x0203 && t.cycles == 16) = true := by decide

/-- V-memory-03: PUSH with SP=0xFEA0 writes the top of OAM. -/
theorem test_memory_03 :
    answers (machineAt 0x0200 [(0x0200, 0xC5)] |>.setSP 0xFEA0 |>.setPair .bc 0xBEEF) (fun t =>
      t.sp == 0xFE9E && t.pc == 0x0201 && holds t 0xFE9E 0xEF && holds t 0xFE9F 0xBE && t.cycles == 16) = true := by decide

/-- V-memory-04: PUSH with SP=0xFEA1 straddles the OAM end. -/
theorem test_memory_04 :
    stopsWith (machineAt 0x0200 [(0x0200, 0xC5)] |>.setSP 0xFEA1 |>.setPair .bc 0xBEEF) (.deviceRange 0xFEA0) = true := by decide

/-- V-memory-06: LD A,(nn) past a 0x4000-byte image. -/
theorem test_memory_06 :
    stopsWith ({ machineAt 0x0200 [(0x0200, 0xFA), (0x0201, 0x00), (0x0202, 0x40)] with cfg := { Config.default with romLen := 0x4000 } }) (.deviceRange 0x4000) = true := by decide

/-- V-memory-09: LDH (0x80),A with MAP_HRAM. -/
theorem test_memory_09 :
    answers ({ machineAt 0x0200 [] with cfg := { Config.default with mapHram := true }, mem := [(0x0200, 0xE0), (0x0201, 0x80)] } |>.setReg .a 0x42) (fun t =>
      t.pc == 0x0202 && holds t 0xFF80 0x42 && t.cycles == 12) = true := by decide

/-- V-memory-10: fetch from 0xFEA0. -/
theorem test_memory_10 :
    stopsWith (machineAt 0xFEA0 []) (.busUnmapped 0xFEA0 .fetch) = true := by decide

/-- V-control-13 through `withFetchWord`: the word 0x0300CD placed at the reset PC is fetched and run by the next step. -/
theorem test_with_fetch_word_runs :
    answers (State.reset.withFetchWord 24 0x0300CD |>.setSP 0xE000) (fun t =>
      t.pc == 0x0300 && t.sp == 0xDFFE && holds t 0xDFFE 0x03 && holds t 0xDFFF 0x01) = true ∧
    decodeTableWord 24 0x0300CD = some (.callnn 0x0300) ∧ decodeTableWord 8 0xC3 = some (.jpnn 0) := by decide

/-- STOP, which the default table leaves out (V-system-04), is admitted by the placing. -/
theorem test_with_fetch_word_admits_stop :
    answers (State.reset.withFetchWord 16 0x0010) (fun t => t.halted && t.pc == 0x0102) = true := by decide

/-! ### The picture unit -/

/-- The reset machine on a line with cycles accumulated. -/
def onLine (s : State) (ly : Byte) (acc : Nat) : State := { s with ppu := { s.ppu with ly := ly, acc := acc } }

/-- V-ppu-02, V-ppu-03, V-ppu-04: the last line wraps; line 144 requests VBlank and signals one frame. -/
theorem test_ppu_line_wraps_and_vblank :
    (let t := ppuStep 4 (onLine State.reset 153 452); t.ppu.ly == 0 && t.ppu.acc == 0 && t.iflag == 0 && t.frames == 0) &&
    (let t := ppuStep 8 (onLine State.reset 143 452); t.ppu.ly == 144 && t.ppu.acc == 4 && t.iflag == 1 && t.frames == 1) &&
    (let t := ppuStep 84 (onLine State.reset 143 455); t.ppu.acc == 83 && t.iflag == 1 && t.frames == 1) = true := by decide

/-- V-ppu-05 to V-ppu-10: when a step renders. -/
theorem test_ppu_render_due :
    renderDue 76 0 (onLine State.reset 5 84) && !renderDue 84 0 (onLine State.reset 5 92) &&
    !renderDue 450 1 (onLine State.reset 5 78) && renderDue 455 1 (onLine State.reset 5 83) &&
    renderDue 0 0 (onLine State.reset 0 80) && !renderDue 0 0 (onLine State.reset 0 79) &&
    !renderDue 455 1 (onLine State.reset 144 83) = true := by decide

/-- The mode list of spec/95_test_vectors.md (R251). -/
theorem test_ppu_mode :
    [(0, 0, 2), (0, 79, 2), (0, 80, 3), (0, 251, 3), (0, 252, 0), (0, 455, 0), (143, 300, 0), (144, 0, 1), (153, 455, 1)].all
      (fun (x : Byte × Nat × Byte) => ppuMode x.1 x.2.1 == x.2.2) = true := by decide

/-- The first ten shades of a line. -/
def firstShades (s : State) (ly : Nat) : List Shade := (List.range 10).map (pixelShade s ly)

/-- The machine of V-ppu-11, with registers. -/
def oneTile (lcdc bgp scx scy : Byte) : State :=
  let s := memoryWith [(0x9800, 0x01), (0x8010, 0x3C), (0x8011, 0x7E)]
  { s with ppu := { s.ppu with lcdc := lcdc, bgp := bgp, scx := scx, scy := scy } }

/-- V-ppu-11, V-ppu-14, V-ppu-15, V-ppu-16. -/
theorem test_ppu_palette_and_scroll :
    firstShades (oneTile 0x10 0xE4 0 0) 0 = [0, 2, 3, 3, 3, 3, 2, 0, 0, 0] ∧
    firstShades (oneTile 0x10 0x1B 0 0) 0 = [3, 1, 0, 0, 0, 0, 1, 3, 3, 3] ∧
    firstShades (oneTile 0x10 0xE4 3 0) 0 = [3, 3, 3, 2, 0, 0, 0, 0, 0, 0] ∧
    firstShades (oneTile 0x10 0xE4 0 0xFF) 1 = [0, 2, 3, 3, 3, 3, 2, 0, 0, 0] := by decide

/-- V-ppu-12, V-ppu-13, V-ppu-17, V-ppu-18: signed indices, the second map, the column that wraps. -/
theorem test_ppu_addressing :
    firstShades { memoryWith [(0x9800, 0x80), (0x8800, 0x3C), (0x8801, 0x7E)] with ppu := { Ppu.reset with bgp := 0xE4 } } 0 =
      [0, 2, 3, 3, 3, 3, 2, 0, 0, 0] ∧
    firstShades { memoryWith [(0x9800, 0x7F), (0x97FE, 0xFF)] with ppu := { Ppu.reset with bgp := 0xE4 } } 7 =
      [1, 1, 1, 1, 1, 1, 1, 1, 0, 0] ∧
    firstShades { memoryWith [(0x9C00, 0x02), (0x8020, 0xFF), (0x8021, 0xFF)] with
        ppu := { Ppu.reset with lcdc := 0x18, bgp := 0xE4 } } 0 = [3, 3, 3, 3, 3, 3, 3, 3, 0, 0] ∧
    firstShades { memoryWith [(0x981F, 0x01), (0x8010, 0x3C), (0x8011, 0x7E)] with
        ppu := { Ppu.reset with lcdc := 0x10, bgp := 0xE4, scx := 0xFC } } 0 = [3, 3, 2, 0, 0, 0, 0, 0, 0, 0] := by decide

/-! ### Construction -/

/-- An image of zero bytes of a length, with a cartridge type. -/
def imageOf (n : Nat) (kind : Byte) : List Byte := (List.replicate n 0).set 0x147 kind

/-- The error of a construction, if any. -/
def errorOf (r : Except ConfigError State) : Option ConfigError :=
  match r with
  | .error e => some e
  | .ok _ => none

set_option maxRecDepth 20000 in
/-- V-config-01, V-config-02, V-config-03. -/
theorem test_config_errors :
    errorOf (construct (some (imageOf 0x147 0)) Config.default []) = some .imageTooShort ∧
    errorOf (construct (some (imageOf 0x148 1)) Config.default []) = some (.unsupportedCartridge 1) ∧
    errorOf (construct none Config.default []) = some .unreadableImage ∧
    errorOf (construct (some (imageOf 0x148 0)) Config.default []) = none := by decide

/-- R67: the image the controller exposes, below 0x8000 from the ROM cells, then the bytes no access sees. -/
theorem test_cartridge_data :
    cartridgeData { State.reset with mem := [(1, 5)], cfg := { Config.default with romLen := 3, romRest := [9] } } =
      [0, 5, 0, 9] := by decide

/-- R6: no parameter changes the 16 cycles of JP nn; of another jump (0xC2) one does. -/
theorem test_fixed_cost :
    let cfg : Config := { Config.default with cycleOverrides := [⟨0xC3, 20, 20⟩, ⟨0xC2, 20, 20⟩] }
    cycleCost cfg 0xC3 true = 16 ∧ cycleCost cfg 0xC3 false = 16 ∧ cycleCost cfg 0xC2 true = 20 := by decide

/-- R272, R222: in debug mode a turn without a resume message does nothing, one with it acknowledges and steps, and
after a fault no turn acknowledges. -/
theorem test_debug_gate :
    let d : Driver := ⟨State.reset, true, 0, false⟩
    let broken : Driver := { d with machine := { State.reset with fault := some (.romWrite 0) } }
    (driverTurn d ⟨false, false⟩).acks = 0 ∧ (driverTurn d ⟨false, false⟩).machine.pc = 0x0100 ∧
    (driverTurn d ⟨true, false⟩).acks = 1 ∧ (driverTurn d ⟨true, false⟩).machine.pc = 0x0101 ∧
    (driverTurn broken ⟨true, false⟩).acks = 0 := by decide

/-- W5: two ranges that share 0x7FFF are rejected, disjoint ones are not. -/
theorem test_overlap :
    (registerRange [⟨0x0000, 0x7FFF, .rom⟩] ⟨0x7FFF, 0x8000, .vram⟩ matches .error .overlap) &&
    (registerRange [⟨0x0000, 0x7FFF, .rom⟩] ⟨0x8000, 0x9FFF, .vram⟩ matches .ok _) &&
    (registerRange [⟨0xFFFF, 0xFFFF, .interrupt⟩] ⟨0xFF80, 0xFFFE, .hram⟩ matches .ok _) = true := by decide

/-- V-config-04, V-config-05: the title ends at a NUL byte or at the field boundary. -/
theorem test_title :
    cartridgeTitle (memoryWith [(0x134, 0x54), (0x135, 0x45), (0x137, 0x54)]) = [0x54, 0x45] ∧
    (cartridgeTitle (memoryWith ((List.range 17).map fun i => (0x134 + i, 0x41)))).length = 16 := by decide

/-! ### Witnesses: a state and operands that meet the hypotheses of each obligation, clause by clause -/

/-- A machine whose pairs point into WRAM, with C naming BGP. -/
def wit : State := ((((machineAt 0x0200 []).setPair .bc 0xC047).setPair .de 0xDFFF).setPair .hl 0xC000).setSP 0xDFFE

/-- `wit` with HL moved. -/
def hlAt (a : Word) : State := wit.setPair .hl a

/-- `wit` with SP moved. -/
def spAt (a : Word) : State := wit.setSP a

theorem witness_LoadRegisterFromHL :
    readByte .read (hlAt 0xDFFF) (hlAt 0xDFFF).hl = .ok 0 ∧
    readByte .read (hlAt 0xE000) (hlAt 0xE000).hl = .error (.busUnmapped 0xE000 .read) := ⟨rfl, rfl⟩

/-- The byte-store clauses at the boundary of ROM and of VRAM, for any statement that stores at HL. -/
theorem witness_StoreAtHL :
    (Instr.ldAtHLReg .b, (hlAt 0x8000).reg .b) ∈
      [(Instr.ldAtHLReg .b, (hlAt 0x8000).reg .b), (.ldAtHLn 7, (7 : Byte))] ∧
    (Instr.ldAtHLn 7, (7 : Byte)) ∈ [(Instr.ldAtHLReg .b, (hlAt 0x8000).reg .b), (.ldAtHLn 7, (7 : Byte))] ∧
    Writable (hlAt 0x8000).cfg (hlAt 0x8000).hl ∧ owner (hlAt 0x7FFF).cfg (hlAt 0x7FFF).hl = some .rom ∧
    owner (hlAt 0xA000).cfg (hlAt 0xA000).hl = none := ⟨by simp, by simp, ⟨.vram, rfl, by decide⟩, rfl, rfl⟩

/-- The premises of `ImmediateFaults`, for an 8-bit and for a 16-bit immediate: the last byte of WRAM holds the opcode, or
the last but one, so that the word leaves WRAM. -/
theorem witness_ImmediateFaults :
    (let s := machineAt 0xDFFF [(0xDFFF, 0x06)]
     Running s ∧ populated s.cfg (Instr.ldBn 0).opcode = true ∧ readByte .fetch s s.pc = .ok (Instr.ldBn 0).opcode ∧
     immediateRead s (.ldBn 0) = .error (.busUnmapped 0xE000 .fetch)) ∧
    (let s := machineAt 0xDFFE [(0xDFFE, 0xC3)]
     Running s ∧ populated s.cfg (Instr.jpnn 0).opcode = true ∧ readByte .fetch s s.pc = .ok (Instr.jpnn 0).opcode ∧
     immediateRead s (.jpnn 0) = .error (.deviceRange 0xE000)) := ⟨⟨⟨rfl, rfl⟩, rfl, rfl, rfl⟩, ⟨rfl, rfl⟩, rfl, rfl, rfl⟩

theorem witness_LoadAFromMemory :
    [readByte .read wit (joinBytes (wit.reg .b) (wit.reg .c)), readByte .read wit (joinBytes (wit.reg .d) (wit.reg .e)),
      readByte .read wit (0xFF00#16 + zext16 (wit.reg .c)), readByte .read wit (0xFF00#16 + zext16 0x0F#8),
      readByte .read wit 0xFFFF].all (fun r => r matches .ok 0) = true ∧
    (Instr.ldhAAtn 0x0F, 0xFF00#16 + zext16 0x0F#8) ∈
      [(Instr.ldAAtBC, joinBytes (wit.reg .b) (wit.reg .c)), (.ldhAAtn 0x0F, 0xFF00#16 + zext16 0x0F#8)] ∧
    readByte .read wit (0xFF00#16 + zext16 0x10#8) = .error (.busUnmapped 0xFF10 .read) := ⟨by decide, by simp, rfl⟩

theorem witness_StoreAToMemory :
    Writable wit.cfg (joinBytes (wit.reg .b) (wit.reg .c)) ∧ Writable wit.cfg (joinBytes (wit.reg .d) (wit.reg .e)) ∧
    Writable wit.cfg (0xFF00#16 + zext16 (wit.reg .c)) ∧ Writable wit.cfg (0xFF00#16 + zext16 0x4B#8) ∧
    Writable wit.cfg 0xFFFF ∧ owner wit.cfg (0xFF00#16 + zext16 0x4C#8) = none ∧ owner wit.cfg 0x7FFF = some .rom :=
  ⟨⟨.wram, rfl, by decide⟩, ⟨.wram, rfl, by decide⟩, ⟨.ppu, rfl, by decide⟩, ⟨.ppu, rfl, by decide⟩,
    ⟨.interrupt, rfl, by decide⟩, rfl, rfl⟩

/-- HL at the top of the address space, where the step wraps, and just past WRAM. -/
theorem witness_LoadAFromHLAndStep :
    (Instr.ldAAtHLInc, (0x0000 : Word)) ∈ [(.ldAAtHLInc, (hlAt 0xFFFF).hl + 1#16), (.ldAAtHLDec, (hlAt 0xFFFF).hl - 1#16)] ∧
    readByte .read (hlAt 0xFFFF) (hlAt 0xFFFF).hl = .ok 0 ∧
    readByte .read (hlAt 0xE000) (hlAt 0xE000).hl = .error (.busUnmapped 0xE000 .read) := ⟨by decide, rfl, rfl⟩

theorem witness_StoreAAtHLAndStep :
    (Instr.ldAtHLDecA, (0x7FFF : Word)) ∈ [(.ldAtHLIncA, (hlAt 0x8000).hl + 1#16), (.ldAtHLDecA, (hlAt 0x8000).hl - 1#16)] ∧
    Writable (hlAt 0x8000).cfg (hlAt 0x8000).hl ∧ owner (hlAt 0x7FFF).cfg (hlAt 0x7FFF).hl = some .rom ∧
    owner (hlAt 0xFEA0).cfg (hlAt 0xFEA0).hl = none := ⟨by decide, ⟨.vram, rfl, by decide⟩, rfl, rfl⟩

/-- The word-store clauses: inside a device up to its last word, unmapped, ROM, and a second byte outside. -/
theorem witness_StoreSP :
    WordWritable wit.cfg 0xDFFE ∧ owner wit.cfg 0xE000 = none ∧ owner wit.cfg 0x7FFF = some .rom ∧
    (owner wit.cfg 0xDFFF = some .wram ∧ Device.wram ≠ .rom ∧ owner wit.cfg (0xDFFF + 1#16) ≠ some .wram) :=
  ⟨⟨.wram, rfl, by decide, rfl⟩, rfl, rfl, rfl, by decide, by decide⟩

/-- The same at the stack: of PUSH, CALL, RST and a dispatch. SP = 0xE000 is the highest that pushes into WRAM. -/
theorem witness_PushPair :
    WordWritable (spAt 0xE000).cfg ((spAt 0xE000).sp - 2#16) ∧ owner (spAt 0).cfg ((spAt 0).sp - 2#16) = none ∧
    owner (spAt 2).cfg ((spAt 2).sp - 2#16) = some .rom ∧
    (owner (spAt 0xE001).cfg ((spAt 0xE001).sp - 2#16) = some .wram ∧ Device.wram ≠ .rom ∧
      owner (spAt 0xE001).cfg ((spAt 0xE001).sp - 2#16 + 1#16) ≠ some .wram) :=
  ⟨⟨.wram, rfl, by decide, rfl⟩, rfl, rfl, rfl, by decide, by decide⟩

/-- A pop from the last word of WRAM, and one that leaves it; of POP, RET and RETI. -/
theorem witness_PopPair :
    readWord .read (spAt 0xDFFE) (spAt 0xDFFE).sp = .ok 0 ∧
    readWord .read (spAt 0xDFFF) (spAt 0xDFFF).sp = .error (.deviceRange 0xE000) ∧ StackPair.bc ≠ .af ∧ Pair.bc ≠ .sp :=
  ⟨rfl, rfl, by decide, by decide⟩

theorem witness_AddAndAdc :
    (AluOp.add = .add ∨ AluOp.add = .adc) ∧ (AluOp.adc = .add ∨ AluOp.adc = .adc) ∧ operandValue wit (.reg .c) = .ok 0x47 ∧
    operandValue wit (.imm 5) = .ok 5 ∧ operandValue wit .atHL = .ok 0 ∧
    operandValue (hlAt 0xA000) .atHL = .error (.busUnmapped 0xA000 .read) :=
  ⟨.inl rfl, .inr rfl, rfl, rfl, rfl, rfl⟩

theorem witness_SubSbcAndCp :
    [AluOp.sub, .sbc, .cp].all (fun o => decide (o = .sub ∨ o = .sbc ∨ o = .cp)) = true ∧
    operandValue wit .atHL = .ok 0 ∧ operandValue (hlAt 0xA000) .atHL = .error (.busUnmapped 0xA000 .read) :=
  ⟨by decide, rfl, rfl⟩

theorem witness_AndXorAndOr :
    (∃ f : Byte → Byte → Byte, (AluOp.xor, f) = (AluOp.and, fun a b => a &&& b) ∨
      (AluOp.xor, f) = (AluOp.xor, fun a b => a ^^^ b) ∨ (AluOp.xor, f) = (AluOp.or, fun a b => a ||| b)) ∧
    operandValue wit (.imm 5) = .ok 5 ∧ operandValue (hlAt 0xA000) .atHL = .error (.busUnmapped 0xA000 .read) :=
  ⟨⟨_, .inr (.inl rfl)⟩, rfl, rfl⟩

/-- Read and writable; read and in ROM, where only the write faults; not readable. -/
theorem witness_IncAndDecAtHL :
    (Instr.decAtHL = .incAtHL ∨ Instr.decAtHL = .decAtHL) ∧ readByte .read (hlAt 0x8000) (hlAt 0x8000).hl = .ok 0 ∧
    Writable (hlAt 0x8000).cfg (hlAt 0x8000).hl ∧ readByte .read (hlAt 0x7FFF) (hlAt 0x7FFF).hl = .ok 0 ∧
    owner (hlAt 0x7FFF).cfg (hlAt 0x7FFF).hl = some .rom ∧
    readByte .read (hlAt 0xA000) (hlAt 0xA000).hl = .error (.busUnmapped 0xA000 .read) ∧
    owner (hlAt 0xA000).cfg (hlAt 0xA000).hl = none := ⟨.inr rfl, rfl, ⟨.vram, rfl, by decide⟩, rfl, rfl, rfl, rfl⟩

/-- A = 0x85 and C clear, each rotate's value and bit out. -/
theorem witness_RotatesOfA :
    let s := wit.setReg .a 0x85
    let a := (s.reg .a).toNat
    let cin := s.flags.c.toNat
    [(Instr.rlca, 0x0B, true), (.rrca, 0xC2, true), (.rla, 0x0A, true), (.rra, 0x42, true)] =
      [(.rlca, 2 * a % 256 + a / 128, decide (128 ≤ a)), (.rrca, a / 2 + 128 * (a % 2), decide (a % 2 = 1)),
        (.rla, 2 * a % 256 + cin, decide (128 ≤ a)), (.rra, a / 2 + 128 * cin, decide (a % 2 = 1))] := by decide

theorem witness_AddPairToHL :
    wit.cfg.hc16 = .bit11 ∧ ({ wit with cfg := { wit.cfg with hc16 := .other } } : State).cfg.hc16 = .other := ⟨rfl, rfl⟩

theorem witness_Jumps :
    [(Instr.jpnn 0x1234, (0x1234 : Word)), (.jpHL, 0xC000), (.jre 0x80, 0x0180)] =
      [(.jpnn 0x1234, 0x1234), (.jpHL, joinBytes (wit.reg .h) (wit.reg .l)),
        (.jre 0x80, wit.pc + BitVec.ofInt 16 (0x80 : Byte).toInt)] := by decide

/-- Both outcomes of a condition, and the two members of the list. -/
theorem witness_ConditionalJumps :
    condHolds .nz wit = true ∧ condHolds .z wit = false ∧
    [(Instr.jpCond .nz 0x1234, (0x1234 : Word)), (Instr.jrCond .nz 0x7F, 0x027F)] =
      [(Instr.jpCond .nz 0x1234, 0x1234), (Instr.jrCond .nz 0x7F, wit.pc + BitVec.ofInt 16 (0x7F : Byte).toInt)] := by decide

theorem witness_CallAndRst :
    [(Instr.callnn 0x0300, (0x0300 : Word)), (Instr.rst 7, 0x38)] =
      [(.callnn 0x0300, 0x0300), (Instr.rst 7, BitVec.ofNat 16 (8 * (7 : Fin 8).val))] ∧
    WordWritable (spAt 0xE000).cfg ((spAt 0xE000).sp - 2#16) := ⟨by decide, .wram, rfl, by decide, rfl⟩

theorem witness_ConditionalCall :
    condHolds .c wit = false ∧ condHolds .nc (spAt 0xE000) = true ∧
    WordWritable (spAt 0xE000).cfg ((spAt 0xE000).sp - 2#16) := ⟨rfl, rfl, .wram, rfl, by decide, rfl⟩

theorem witness_RetAndReti :
    (Instr.reti = .ret ∨ Instr.reti = .reti) ∧ readWord .read (spAt 0xDFFE) (spAt 0xDFFE).sp = .ok 0 ∧
    readWord .read (spAt 0xE000) (spAt 0xE000).sp = .error (.busUnmapped 0xE000 .read) := ⟨.inr rfl, rfl, rfl⟩

theorem witness_ConditionalRet :
    condHolds .z wit = false ∧ condHolds .nz (spAt 0xDFFE) = true ∧
    readWord .read (spAt 0xDFFE) (spAt 0xDFFE).sp = .ok 0 ∧ condHolds .nz (spAt 0xDFFF) = true ∧
    readWord .read (spAt 0xDFFF) (spAt 0xDFFF).sp = .error (.deviceRange 0xE000) := ⟨rfl, rfl, rfl, rfl, rfl⟩

theorem witness_SystemInstructions :
    (Instr.stop 0x5A, wit.ime, true) ∈ [(Instr.nop, wit.ime, wit.halted), (.halt, wit.ime, true), (.stop 0x5A, wit.ime, true),
      (.di, false, wit.halted), (.ei, true, wit.halted)] := by decide

theorem witness_UnassignedRowsStop :
    Instr.unassigned 0xCB = some .cbPrefix ∧ Instr.unassigned 0xD3 = some .illegalD3 ∧
    Instr.unassigned 0xFD = some .illegalFD := ⟨rfl, rfl, rfl⟩

/-- One, two and three bytes; the three-byte one ends at the last byte of WRAM. -/
theorem witness_StepRunsTheDecodedInstruction :
    (let s := machineAt 0x0200 [(0x0200, 0x41)]
     Running s ∧ InstructionAt s .ldBC ∧ Instr.wf .ldBC = true ∧ populated s.cfg (Instr.ldBC).opcode = true) ∧
    (let s := machineAt 0x0200 [(0x0200, 0x06), (0x0201, 0x05)]
     Running s ∧ InstructionAt s (.ldBn 5) ∧ Instr.wf (.ldBn 5) = true ∧ populated s.cfg (Instr.ldBn 5).opcode = true) ∧
    (let s := machineAt 0xDFFD [(0xDFFD, 0xC3), (0xDFFE, 0x34), (0xDFFF, 0x12)]
     Running s ∧ InstructionAt s (.jpnn 0x1234) ∧ Instr.wf (.jpnn 0x1234) = true ∧
      populated s.cfg (Instr.jpnn 0x1234).opcode = true) :=
  ⟨⟨⟨rfl, rfl⟩, ⟨_, rfl, .inl rfl⟩, rfl, rfl⟩, ⟨⟨rfl, rfl⟩, ⟨_, rfl, .inr (.inl ⟨_, rfl, rfl⟩)⟩, rfl, rfl⟩,
    ⟨rfl, rfl⟩, ⟨_, rfl, .inr (.inr ⟨_, rfl, rfl⟩)⟩, rfl, rfl⟩

theorem witness_OpcodeFetchFaults :
    (let s := machineAt 0xFEA0 []
     Running s ∧ readByte .fetch s s.pc = .error (.busUnmapped 0xFEA0 .fetch)) ∧
    (let s := machineAt 0x0200 [(0x0200, 0x10)]
     Running s ∧ readByte .fetch s s.pc = .ok 0x10#8 ∧ populated s.cfg 0x10 = false) ∧
    (Instr.unassigned 0xCB).isSome = true ∧ Config.default.implOpcodes = .full := ⟨⟨⟨rfl, rfl⟩, rfl⟩, ⟨⟨rfl, rfl⟩, rfl, rfl⟩, rfl, rfl⟩

theorem witness_HaltedStep : (wit.setHalted true).fault = none ∧ (wit.setHalted true).halted = true := ⟨rfl, rfl⟩

/-- A halted machine with a request to serve, which answers; and one with IME clear. -/
theorem witness_HaltIsForever :
    (let s := (((spAt 0xE000).setHalted true).setIme true).setIe 0x1F |>.setIflag 0x10
     s.fault = none ∧ s.halted = true ∧ s.ime = true ∧ ∃ t, step s = .next t) ∧
    (let s := wit.setHalted true
     s.fault = none ∧ s.halted = true ∧ s.ime = false ∧ servedSources s = []) :=
  ⟨⟨rfl, rfl, rfl, _, rfl⟩, rfl, rfl, rfl, by decide⟩

theorem witness_RomAndParametersNeverChange : ∃ t, step State.reset = .next t := ⟨_, rfl⟩

theorem witness_StepKeepsTheInvariant : State.Inv State.reset ∧ ∃ t, step State.reset = .next t :=
  ⟨⟨by decide, by decide, by decide, by decide, by decide⟩, _, rfl⟩

/-- The last line with the accumulator full, so that the step crosses it. -/
theorem witness_StepCostBounds :
    let s := onLine State.reset 153 455
    State.Inv s ∧ Config.wf s.cfg = true ∧ ∃ t, step s = .next t :=
  ⟨⟨by decide, by decide, by decide, by decide, by decide⟩, by decide, _, rfl⟩

theorem witness_OnlyNamedInstructionsWriteControl :
    (∃ t, exec .nop wit = .next t) ∧ Instr.nop ≠ .ei ∧ Instr.nop ≠ .di ∧ Instr.nop ≠ .reti ∧ entersHalt .nop = false :=
  ⟨⟨_, rfl⟩, by decide, by decide, by decide, rfl⟩

/-- Of each of the four clauses, an opcode that keeps that flag. -/
theorem witness_FlagsWrittenAsTheTableSays :
    (∃ t, exec .scf wit = .next t) ∧ (flagsWritten (Instr.scf).opcode).z = false ∧
    (∃ t, exec .daa wit = .next t) ∧ (flagsWritten (Instr.daa).opcode).n = false ∧
    (∃ t, exec .ldBC wit = .next t) ∧ (flagsWritten (Instr.ldBC).opcode).h = false ∧
    (∃ t, exec .incB wit = .next t) ∧ (flagsWritten (Instr.incB).opcode).c = false :=
  ⟨⟨_, rfl⟩, rfl, ⟨_, rfl⟩, rfl, ⟨_, rfl⟩, rfl, ⟨_, rfl⟩, rfl⟩

theorem witness_DispatchOfOneSource :
    WordWritable (spAt 0xE000).cfg ((spAt 0xE000).sp - 2#16) ∧ owner (spAt 0).cfg ((spAt 0).sp - 2#16) = none ∧
    owner (spAt 2).cfg ((spAt 2).sp - 2#16) = some .rom ∧
    (owner (spAt 0xC000).cfg ((spAt 0xC000).sp - 2#16) = none) ∧
    ((0xDFFD : Word) ≠ (spAt 0xE000).sp - 2#16 ∧ (0xDFFD : Word) ≠ (spAt 0xE000).sp - 1#16 ∧ (0xDFFD : Word) ≠ 0xFF0F#16) :=
  ⟨⟨.wram, rfl, by decide, rfl⟩, rfl, rfl, rfl, by decide⟩

theorem witness_InterruptPhaseServesTheSnapshot :
    wit.ime = false ∧
    (let s := ((spAt 0xE000).setIme true).setIe 0x04 |>.setIflag 0x06
     s.ime = true ∧ (∃ t, interruptPhase s = .next t) ∧ (servedSources s).getLast? = some 2) ∧
    (let s := (wit.setIme true).setIe 0xFF |>.setIflag 0xE0
     s.ime = true ∧ (∃ t, interruptPhase s = .next t) ∧ servedSources s = []) :=
  ⟨rfl, ⟨rfl, ⟨_, rfl⟩, by decide⟩, rfl, ⟨_, rfl⟩, by decide⟩

theorem witness_EnableTakesEffectAtOnce :
    [0xFB, 0xF3, 0xD9].all (fun op =>
      let s := machineAt 0x0200 [(0x0200, op)] |>.setSP 0xDFFE
      s.fault == none && !s.halted && populated s.cfg op && (readByte .fetch s s.pc matches .ok _) &&
        (readWord .read s s.sp matches .ok _)) = true ∧
    readByte .fetch (machineAt 0x0200 [(0x0200, 0xFB)]) 0x0200 = .ok 0xFB#8 := ⟨by decide, rfl⟩

/-- The fault of a read, if any. -/
def errorAt (s : State) (a : Word) : Option Fault :=
  match readByte .read s a with
  | .error e => some e
  | .ok _ => none

/-- The map at both ends of every region: the image, ROM past it, the other devices, the holes. -/
theorem witness_AddressMap :
    let cfg : Config := { Config.default with romLen := 0x4000 }
    let s : State := { State.reset with cfg := cfg }
    [0x0000, 0x3FFF].all (fun a => readByte .read s a matches .ok _) &&
    [0x4000, 0x7FFF].all (fun a => errorAt s a == some (.deviceRange a)) &&
    [0x8000, 0x9FFF, 0xC000, 0xDFFF, 0xFE00, 0xFE9F, 0xFF0F, 0xFF40, 0xFF4B, 0xFFFF].all (fun a =>
      readByte .read s a matches .ok _) &&
    [0xA000, 0xBFFF, 0xE000, 0xFDFF, 0xFEA0, 0xFF0E, 0xFF10, 0xFF3F, 0xFF4C, 0xFF7F, 0xFF80, 0xFFFE].all (fun a =>
      errorAt s a == some (.busUnmapped a .read)) = true := by decide

theorem witness_RegisterReads :
    (0xFF41, (wit.ppu.stat &&& 0xFC#8) ||| 2#8) ∈
      [(0xFF40, wit.ppu.lcdc), (0xFF41, (wit.ppu.stat &&& 0xFC#8) ||| (2#8 : Byte))] := by decide

theorem witness_ByteWrites :
    Writable wit.cfg 0x8000 ∧ owner wit.cfg 0xA000 = none ∧ owner wit.cfg 0x7FFF = some .rom :=
  ⟨⟨.vram, rfl, by decide⟩, rfl, rfl⟩

/-- The first byte unreadable; the second outside; both read; the second unreadable in ROM; the writes alike. -/
theorem witness_WordAccesses :
    readByte .read wit 0xA000 = .error (.busUnmapped 0xA000 .read) ∧
    (readByte .read wit 0xDFFF = .ok 0 ∧ owner wit.cfg (0xDFFF + 1#16) ≠ owner wit.cfg 0xDFFF) ∧
    (readByte .read wit 0xDFFE = .ok 0 ∧ owner wit.cfg (0xDFFE + 1#16) = owner wit.cfg 0xDFFE ∧
      readByte .read wit (0xDFFE + 1#16) = .ok 0) ∧
    (let s : State := { wit with cfg := { wit.cfg with romLen := 0x4000 } }
     readByte .read s 0x3FFF = .ok 0 ∧ owner s.cfg (0x3FFF + 1#16) = owner s.cfg 0x3FFF ∧
      readByte .read s (0x3FFF + 1#16) = .error (.deviceRange 0x4000)) ∧
    writeByte wit 0x7FFF 1 = .error (.romWrite 0x7FFF) ∧
    (∃ t, writeWord wit 0xDFFE 0x1234 = .ok t) ∧
    (∃ t, writeByte wit 0xDFFF (lowByte 0x1234) = .ok t) ∧ owner wit.cfg (0xDFFF + 1#16) ≠ owner wit.cfg 0xDFFF :=
  ⟨rfl, ⟨rfl, by decide⟩, ⟨rfl, by decide, rfl⟩, ⟨rfl, by decide, rfl⟩, rfl, ⟨_, rfl⟩, ⟨_, rfl⟩, by decide⟩

theorem witness_WordRoundTrip :
    (WordWritable wit.cfg 0xFF42 ∧ ¬ ((0xFF42 : Word) = 0xFF40#16 ∨ (0xFF42 : Word) = 0xFF41#16 ∨
      (0xFF42 : Word) = 0xFF43#16 ∨ (0xFF42 : Word) = 0xFF44#16)) ∧
    (0xFF43 : Word) = 0xFF43#16 ∧ ¬ WordWritable wit.cfg 0x9FFF :=
  ⟨⟨⟨.ppu, rfl, by decide, rfl⟩, by decide⟩, rfl, by rintro ⟨d, h, -, h'⟩; cases h; revert h'; decide⟩

theorem witness_LineAdvance : (onLine State.reset 153 455).ppu.ly.toNat < 154 := by decide

/-- The frame's last position; a call that reaches line 144 and one that stops a cycle short; costs that sum to a frame. -/
theorem witness_OneFramePer70224Cycles :
    ((onLine State.reset 153 455).ppu.ly.toNat < 154 ∧ (onLine State.reset 153 455).ppu.acc < 456) ∧
    (let s := onLine State.reset 143 455
     s.ppu.acc + 1 < 912 ∧ s.ppu.ly.toNat = 143 ∧ 456 ≤ s.ppu.acc + 1 ∧ ¬ (456 ≤ s.ppu.acc + 0)) ∧
    (List.replicate 154 456).sum = 70224 := ⟨by decide, by decide, by simp⟩

theorem line_after_step (n : Nat) (s : State) (hly : s.ppu.ly.toNat = 0) (hacc : s.ppu.acc = 0) (hn : n < 456) :
    (ppuStep n s).ppu.ly.toNat = 0 ∧ (ppuStep n s).ppu.acc = n := by
  obtain ⟨h1, h2, -⟩ := ppuStep_counts n s (by omega)
  omega

/-- V-ppu-09 and V-ppu-10: entered at 80 cycles, not at 79. -/
theorem witness_RenderTrigger :
    ((ppuStep 80 State.reset).ppu.ly.toNat = 0 ∧ 80 ≤ (ppuStep 80 State.reset).ppu.acc ∧ State.reset.ppu.acc < 80) ∧
    ¬ (80 ≤ (ppuStep 79 State.reset).ppu.acc) :=
  have h := line_after_step 80 State.reset rfl rfl (by decide)
  have h' := line_after_step 79 State.reset rfl rfl (by decide)
  ⟨⟨h.1, Nat.le_of_eq h.2.symm, by decide⟩, fun x => absurd (h'.2 ▸ x) (by decide)⟩

theorem witness_RenderedPixel : 143 < 144 ∧ 159 < 160 := by decide

theorem witness_ResetState :
    (0xFF41, (2#8 : Byte)) ∈ [(0xFF40, (0#8 : Byte)), (0xFF41, 2#8), (0xFF4B, 0#8)] ∧ 143 < 144 ∧ 159 < 160 := by decide

set_option maxRecDepth 20000 in
theorem witness_ConfigurationErrors :
    (List.replicate 0x147 (0 : Byte)).length < 0x148 ∧ (imageOf 0x148 1)[0x147]? = some 1 ∧ (imageOf 0x148 0)[0x147]? = some 0 ∧
    (∃ r ∈ [(⟨0x0000, 0x7FFF, .rom⟩ : Binding)], 0x7FFF ≤ r.last ∧ r.first ≤ 0x8000) ∧
    ∀ r ∈ [(⟨0x0000, 0x7FFF, .rom⟩ : Binding)], ¬ (0x8000 ≤ r.last ∧ r.first ≤ 0x9FFF) := by decide

set_option maxRecDepth 20000 in
theorem witness_ConstructedMachine :
    ∃ s, construct (some (imageOf 0x148 0)) Config.default [(0xC000, 7)] = .ok s ∧ isRamAddress s.cfg 0xC000 = true ∧
      (0x0147 : Word).toNat < 0x8000 ∧ (imageOf 0x148 0)[(0x0147 : Word).toNat]? = some 0 ∧
      ((0xC000 : Word).toNat, (7 : Byte)) ∈ [((0xC000, 7) : Host.Cell)] ∧
      ∀ w, ((0xC000 : Word).toNat, w) ∈ [((0xC000, 7) : Host.Cell)] → w = 7 :=
  ⟨_, rfl, rfl, by decide, rfl, by decide, fun w h => by simpa using h⟩

theorem witness_FatalErrorEndsTheRun :
    ({ wit with fault := some (.romWrite 0) } : State).fault = some (.romWrite 0) ∧
    (∃ d : Driver, d.machine = { wit with fault := some (.romWrite 0) } ∧ d.debug = true ∧ d.stopped = false) ∧
    (let s := machineAt 0x0200 [(0x0200, 0xD3)]
     s.fault = none ∧ step s = .fault (.unknownOpcode 0xD3 0x0200)) :=
  ⟨rfl, ⟨⟨_, true, 0, false⟩, rfl, rfl, rfl⟩, rfl, rfl⟩

theorem witness_EncodeInvertsDecode : decode [0xC3, 0x34, 0x12, 0x76] = .ok (.jpnn 0x1234, [0x76]) := rfl

end Sys2Proof.Tests
end

section
/-! PROOF. The picture unit over a run of steps: one frame in every 70,224 cycles (R253, R254, R263). -/

namespace Sys2Proof.Machine

/-! ### Line 144 among the lines entered -/

theorem vblanksIn_add (ly j k : Nat) :
    vblanksIn ly (j + k) = vblanksIn ly j + vblanksIn ((ly + j) % 154) k := by
  unfold vblanksIn
  omega

/-- A whole frame of lines enters line 144 once, from whatever line it starts (R253). -/
theorem vblanksIn_frame (ly : Nat) : vblanksIn ly 154 = 1 := by
  unfold vblanksIn
  omega

/-- Up to one line enters line 144 exactly when it leaves line 143 (R254). -/
theorem vblanksIn_of_le_one {ly k : Nat} (hly : ly < 154) (hk : k ≤ 1) :
    vblanksIn ly k = if ly = 143 ∧ k = 1 then 1 else 0 := by
  unfold vblanksIn
  split <;> omega

/-- The VBlank request is sticky: raised by either of two steps, it is raised by the two together (R254). -/
theorem vblankRequest_add (f : Byte) (j k : Nat) :
    (if k = 0 then (if j = 0 then f else f ||| 1#8) else (if j = 0 then f else f ||| 1#8) ||| 1#8) =
      if j + k = 0 then f else f ||| 1#8 := by
  by_cases hj : j = 0
  · simp [hj]
  · simp [hj, BitVec.or_assoc]

/-! ### A run of picture unit steps -/

/-- A run of picture unit steps counts as one step of all its cycles does (`ppuStep_counts`): how the cycles are split
over the steps does not matter. The counts add up because the lines entered so far and those still to come do. -/
theorem ppuSteps_counts (costs : List Nat) (s : State) (hly : s.ppu.ly.toNat < 154) (hacc : s.ppu.acc < 456) :
    let t := costs.foldl (fun u n => ppuStep n u) s
    let lines := (s.ppu.acc + costs.sum) / 456
    t.ppu.ly.toNat = (s.ppu.ly.toNat + lines) % 154 ∧ t.ppu.acc = (s.ppu.acc + costs.sum) % 456 ∧
    t.frames = s.frames + vblanksIn s.ppu.ly.toNat lines ∧
    t.iflag = (if vblanksIn s.ppu.ly.toNat lines = 0 then s.iflag else s.iflag ||| 1#8) := by
  induction costs generalizing s with
  | nil => simp [Nat.div_eq_of_lt hacc, Nat.mod_eq_of_lt hacc, Nat.mod_eq_of_lt hly, vblanksIn]
  | cons n costs ih =>
    obtain ⟨hly₁, hacc₁, hframes₁, hiflag₁⟩ := ppuStep_counts n s hly
    obtain ⟨hly₂, hacc₂, hframes₂, hiflag₂⟩ := ih (ppuStep n s) (by omega) (by omega)
    have hlines : (s.ppu.acc + (n + costs.sum)) / 456 =
        (s.ppu.acc + n) / 456 + ((s.ppu.acc + n) % 456 + costs.sum) / 456 := by omega
    rw [hly₁, hacc₁] at hly₂ hframes₂ hiflag₂
    rw [hframes₁] at hframes₂
    rw [hiflag₁] at hiflag₂
    simp only [List.foldl_cons, List.sum_cons, hlines, vblanksIn_add]
    refine ⟨by omega, by omega, by omega, ?_⟩
    rw [hiflag₂, vblankRequest_add]

/-- Settles O50: a step of up to one line enters line 144 only from line 143; a run of 70,224 cycles enters 154 lines, so
line 144 once and at last the line it began on. -/
theorem oneFramePer70224Cycles : Obligations.OneFramePer70224Cycles := by
  intro s hly hacc
  constructor
  · intro n hn
    obtain ⟨-, -, hframes, hiflag⟩ := ppuStep_counts n s hly
    rw [vblanksIn_of_le_one hly (by omega)] at hframes hiflag
    refine ⟨fun hreached => ?_, fun hnot => ?_⟩
    · have hentered : s.ppu.ly.toNat = 143 ∧ (s.ppu.acc + n) / 456 = 1 := by omega
      simp [hframes, hiflag, hentered]
    · have hentered : ¬ (s.ppu.ly.toNat = 143 ∧ (s.ppu.acc + n) / 456 = 1) := by omega
      simp [hframes, hiflag, hentered]
  · intro costs hsum
    obtain ⟨hly', hacc', hframes, hiflag⟩ := ppuSteps_counts costs s hly hacc
    have hlines : (s.ppu.acc + costs.sum) / 456 = 154 := by omega
    rw [hlines, vblanksIn_frame] at hframes hiflag
    refine ⟨hframes, by simp [hiflag], ?_⟩
    unfold framePosition
    omega

end Sys2Proof.Machine
end

section
/-! PROOF. The state of the machine: what every step keeps, what an instruction may write, the halted state, the mapped
registers and the end of a run (R25-R47, R222, R246). -/

namespace Sys2Proof.Machine

/-! ### What a picture unit step leaves alone (R265) -/

/-- A picture unit step writes its own registers, IF, the frame count and the frame buffer only (R252, R265). -/
theorem ppuStep_eq (n : Nat) (s : State) : ppuStep n s = { s with
    ppu := (ppuStep n s).ppu, iflag := (ppuStep n s).iflag, frames := (ppuStep n s).frames, fb := (ppuStep n s).fb } := by
  obtain ⟨_, _, _, _, h, -⟩ := ppuStep_shape n s
  rw [h]

@[simp] theorem ppuStep_regs (n : Nat) (s : State) : (ppuStep n s).regs = s.regs := by rw [ppuStep_eq]
@[simp] theorem ppuStep_ime (n : Nat) (s : State) : (ppuStep n s).ime = s.ime := by rw [ppuStep_eq]
@[simp] theorem ppuStep_halted (n : Nat) (s : State) : (ppuStep n s).halted = s.halted := by rw [ppuStep_eq]
@[simp] theorem ppuStep_ie (n : Nat) (s : State) : (ppuStep n s).ie = s.ie := by rw [ppuStep_eq]
@[simp] theorem ppuStep_mem (n : Nat) (s : State) : (ppuStep n s).mem = s.mem := by rw [ppuStep_eq]
@[simp] theorem ppuStep_fault (n : Nat) (s : State) : (ppuStep n s).fault = s.fault := by rw [ppuStep_eq]
@[simp] theorem ppuStep_cycles (n : Nat) (s : State) : (ppuStep n s).cycles = s.cycles := by rw [ppuStep_eq]
@[simp] theorem ppuStep_cfg (n : Nat) (s : State) : (ppuStep n s).cfg = s.cfg := by rw [ppuStep_eq]

/-! ### The invariant -/

/-- The processor's part of a step keeps the invariant: LY and the accumulator are the picture unit's (R37, R41). -/
theorem Effect.keeps_inv {s t : State} (e : Effect s t) (hs : State.Inv s) : State.Inv t := by
  obtain ⟨hmem, hf, hstat, hly, hacc⟩ := hs
  obtain ⟨-, -, -, -, ely, eacc⟩ := e.outputs
  exact ⟨e.wf hmem, e.f hf, e.stat hstat, ely ▸ hly, eacc ▸ hacc⟩

/-- A picture unit step keeps the invariant: LY stays in the frame and the accumulator is a remainder (R252, R253). -/
theorem ppuStep_keeps_inv {n : Nat} {s : State} (hs : State.Inv s) : State.Inv (ppuStep n s) := by
  obtain ⟨hmem, hf, hstat, hly, -⟩ := hs
  obtain ⟨ly, _, _, _, h, -, hly'⟩ := ppuStep_shape n s
  rw [h]
  exact ⟨hmem, hf, hstat, hly' hly, Nat.mod_lt _ (by decide)⟩

/-- Settles O37: the processor's effect keeps the invariant, then the picture unit does. -/
theorem stepKeepsTheInvariant : Obligations.StepKeepsTheInvariant := by
  intro s t hs h
  obtain ⟨v, e, rfl⟩ := step_effect h
  exact ppuStep_keeps_inv (e.keeps_inv hs)

/-- Settles O54: memory is empty and every register the invariant speaks of is zero. -/
theorem resetSatisfiesTheInvariant : Obligations.ResetSatisfiesTheInvariant :=
  ⟨Memory.wf_nil, by decide, by decide, by decide, by decide⟩

/-! ### The halted state -/

/-- The halted step: no fetch, 4 cycles, the interrupt phase, then the picture unit (R211, R220, R239). -/
theorem step_of_halted {s : State} (hf : s.fault = none) (hh : s.halted = true) :
    step s = thenRun (interruptPhase (s.setCycles 4)) fun t => .next (ppuStep t.cycles t) := by
  simp [step, systemStep, hf, cpuStep, instructionPhase, hh, thenRun, haltedCost]

/-- With IME clear or no source to serve, the interrupt phase does nothing (R234, R235). -/
theorem interruptPhase_idle {s : State} (h : s.ime = false ∨ servedSources s = []) : interruptPhase s = .next s := by
  by_cases hi : s.ime = true
  · have hnone : servedSources s = [] := h.resolve_left (by simp [hi])
    rw [interruptPhase_eq_fold s hi, hnone, List.foldl_nil]
  · rw [interruptPhase, if_neg hi]

/-- What the interrupt phase never does: it leaves the run state, the operand registers, F and the fault record, and sets no
IME (R230, R235, R236). -/
theorem interruptPhase_keeps {s t : State} (h : interruptPhase s = .next t) :
    t.halted = s.halted ∧ t.fault = s.fault ∧ RegsKept s t [] ∧ FlagsKept s t ∧ (t.ime = true → s.ime = true) := by
  rcases interruptPhase_next h with rfl | ⟨hi, -, -, -, hhalted, hregs, hflags, heffect⟩
  · exact ⟨rfl, rfl, fun _ _ => rfl, rfl, id⟩
  · obtain ⟨-, -, hfault, -⟩ := heffect.outputs
    exact ⟨hhalted, hfault, hregs, hflags, fun _ => hi⟩

/-- Settles O35: a halted step is the interrupt phase and the picture unit, and neither writes the run state, an operand
register or F. -/
theorem haltIsForever : Obligations.HaltIsForever := by
  intro s hf hh
  rw [step_of_halted hf hh]
  constructor
  · intro t h
    obtain ⟨v, hv, h⟩ := thenRun_next h
    cases h
    obtain ⟨hhalted, hfault, hregs, hflags, hime⟩ := interruptPhase_keeps hv
    refine ⟨?_, ?_, fun r hr => ?_, ?_, ?_⟩
    · rw [ppuStep_halted, hhalted, State.setCycles_halted, hh]
    · rw [ppuStep_fault, hfault, State.setCycles_fault, hf]
    · simpa using hregs r hr
    · simpa [FlagsKept] using hflags
    · simpa using hime
  · intro hidle
    rw [interruptPhase_idle (s := s.setCycles 4) hidle]
    exact ⟨_, rfl, by simp [PointersKept], by simp, by simp, by simp, by simp⟩

/-! ### The cartridge and the parameters -/

/-- No step writes a parameter or a byte of the memory below 0x8000 (R67, R68). -/
theorem step_keeps_rom {s t : State} (h : step s = .next t) :
    t.cfg = s.cfg ∧ ∀ a, a < 0x8000 → Memory.read t.mem a = Memory.read s.mem a := by
  obtain ⟨v, e, rfl⟩ := step_effect h
  obtain ⟨-, -, -, hcfg, -⟩ := e.outputs
  exact ⟨by rw [ppuStep_cfg, hcfg], fun a ha => by rw [ppuStep_mem, e.rom a ha]⟩

/-- The image the cartridge exposes is a function of the parameters and the memory below 0x8000 (R67). -/
theorem cartridgeData_congr {s t : State} (hc : t.cfg = s.cfg)
    (hm : ∀ a, a < 0x8000 → Memory.read t.mem a = Memory.read s.mem a) : cartridgeData t = cartridgeData s := by
  unfold cartridgeData
  rw [hc]
  congr 1
  refine List.map_congr_left fun a ha => hm a ?_
  have := List.mem_range.mp ha
  omega

/-- What a read of a ROM address answers is a function of the parameters and the memory below 0x8000 (R67). -/
theorem readByte_rom_congr {s t : State} (hc : t.cfg = s.cfg)
    (hm : ∀ a, a < 0x8000 → Memory.read t.mem a = Memory.read s.mem a) (k : Access) {a : Word} (ha : a.toNat < 0x8000) :
    readByte k t a = readByte k s a := by
  refine readByte_eq_of k a hc fun d hd => ?_
  rw [owner_rom.mpr ha] at hd
  cases hd
  simp only [deviceRead, hc, hm _ ha]

/-- Settles O36: the parameters and the ROM cells stay, and the image and the ROM reads are functions of them. -/
theorem romAndParametersNeverChange : Obligations.RomAndParametersNeverChange := by
  intro s t h
  obtain ⟨hc, hm⟩ := step_keeps_rom h
  exact ⟨hc, cartridgeData_congr hc hm, fun k _ ha => readByte_rom_congr hc hm k ha⟩

/-! ### What an instruction may write -/

/-- Settles O39: the answer of every instruction keeps the outputs, and each control bit its form does not write. -/
theorem onlyNamedInstructionsWriteControl : Obligations.OnlyNamedInstructionsWriteControl := by
  intro i s t h
  have answer := exec_answer h
  exact ⟨fun hei hdi hreti => answer.ime (by simp [writesIme, hei, hdi, hreti]), answer.halted, answer.effect.outputs⟩

/-- Settles O40: the flags an answer keeps are those its table row does not name, form by form. -/
theorem flagsWrittenAsTheTableSays : Obligations.FlagsWrittenAsTheTableSays :=
  fun _ _ _ h => (exec_answer h).flags

/-! ### The mapped registers -/

/-- A read of the picture unit's registers is the register block's own (R33, R65). -/
theorem readByte_ppuRegister (k : Access) (s : State) {a : Word} (h : 0xFF40 ≤ a.toNat) (h' : a.toNat < 0xFF4C) :
    readByte k s a = .ok (s.ppu.read a) := by
  rw [readByte_of_owner (owner_of_ppu_range h h'), deviceRead, if_neg (by omega)]

theorem readByte_iflag (k : Access) (s : State) : readByte k s 0xFF0F#16 = .ok s.iflag := by
  simp [readByte_of_owner owner_if, deviceRead]

theorem readByte_ie (k : Access) (s : State) : readByte k s 0xFFFF#16 = .ok s.ie := by
  simp [readByte_of_owner owner_ie, deviceRead]

/-- Settles O45: IF and IE are the interrupt controller's, the other twelve addresses the register block's. -/
theorem registerReads : Obligations.RegisterReads := by
  intro k s p v mode hp
  simp only [List.mem_cons, Prod.mk.injEq, List.not_mem_nil, or_false] at hp
  rcases hp with ⟨rfl, rfl⟩ | ⟨rfl, rfl⟩ | hppu
  · exact readByte_iflag k s
  · exact readByte_ie k s
  · have range : 0xFF40 ≤ p ∧ p < 0xFF4C := by omega
    have hp : (BitVec.ofNat 16 p).toNat = p := by
      simp
      omega
    rw [readByte_ppuRegister k s (by omega) (by omega)]
    rcases hppu with ⟨rfl, rfl⟩ | ⟨rfl, rfl⟩ | ⟨rfl, rfl⟩ | ⟨rfl, rfl⟩ | ⟨rfl, rfl⟩ | ⟨rfl, rfl⟩ | ⟨rfl, rfl⟩ |
      ⟨rfl, rfl⟩ | ⟨rfl, rfl⟩ | ⟨rfl, rfl⟩ | ⟨rfl, rfl⟩ | ⟨rfl, rfl⟩ <;> rfl

/-! ### The end of a run -/

/-- With a fault recorded no step is taken (R222, R270). -/
theorem step_of_fault {s : State} {r : Fault} (h : s.fault = some r) : step s = .fault r := by
  simp only [step, systemStep, h]

theorem driverStep_of_fault {s : State} {r : Fault} (h : s.fault = some r) : driverStep s = s := by
  simp only [driverStep, h]

theorem driverTurn_of_fault {d : Driver} {r : Fault} (h : d.machine.fault = some r) (input : HostInput) :
    driverTurn d input = d := by
  simp [driverTurn, h]

/-- A step that faults makes the driver record the fault (R46, R222). -/
theorem driverStep_of_step_fault {s : State} {r : Fault} (hf : s.fault = none) (h : step s = .fault r) :
    driverStep s = faulted s r := by
  simp only [driverStep, hf, h]

/-- Settles O57: the record is set by the step that faults, and a machine with a record is left as it is. -/
theorem fatalErrorEndsTheRun : Obligations.FatalErrorEndsTheRun := by
  intro s r
  constructor
  · rintro hr
    refine ⟨step_of_fault hr, driverStep_of_fault hr, ?_⟩
    rintro d input rfl
    exact driverTurn_of_fault hr input
  · intro hf h
    rw [driverStep_of_step_fault hf h]
    exact ⟨rfl, rfl, driverStep_of_fault rfl⟩

end Sys2Proof.Machine
end

section
/-! PROOF. Memory and the bus: the address map, byte and word accesses, the word round trip (R50-R76), and what construction
refuses and gives (R51, R67, R70, R290-R294). -/

namespace Sys2Proof.Machine

/-! ### The address map (R59) -/

/-- The mapped addresses are those of R59's ranges. -/
theorem owner_isSome_iff (cfg : Config) (a : Word) : (owner cfg a).isSome = true ↔
    a.toNat < 0xA000 ∨ (0xC000 ≤ a.toNat ∧ a.toNat < 0xE000) ∨ (0xFE00 ≤ a.toNat ∧ a.toNat < 0xFEA0) ∨ a.toNat = 0xFF0F ∨
      (0xFF40 ≤ a.toNat ∧ a.toNat < 0xFF4C) ∨ (cfg.mapHram = true ∧ 0xFF80 ≤ a.toNat ∧ a.toNat < 0xFFFF) ∨
      a.toNat = 0xFFFF := by
  rcases owner_cases cfg a with h | h | h | h | h | h | h | h | h | h | h | h | h <;>
    cases hm : cfg.mapHram <;> simp [h, hm] <;> omega

/-- The writable addresses are the mapped ones above the cartridge (R68). -/
theorem writable_iff (cfg : Config) (a : Word) : Writable cfg a ↔ (owner cfg a).isSome = true ∧ 0x8000 ≤ a.toNat := by
  rw [← Nat.not_lt, ← owner_rom (cfg := cfg), Writable]
  cases owner cfg a <;> simp

theorem readByte_unmapped {k : Access} {s : State} {a : Word} (h : owner s.cfg a = none) :
    readByte k s a = .error (.busUnmapped a k) := by simp [readByte, h]

theorem readByte_rom {k : Access} {s : State} {a : Word} (ha : a.toNat < 0x8000) (hlen : a.toNat < s.cfg.romLen) :
    readByte k s a = .ok (Memory.read s.mem a.toNat) := by
  simp [readByte_of_owner (owner_rom.mpr ha), deviceRead, hlen]

theorem readByte_past_rom {k : Access} {s : State} {a : Word} (ha : a.toNat < 0x8000) (hlen : s.cfg.romLen ≤ a.toNat) :
    readByte k s a = .error (.deviceRange a) := by
  simp [readByte_of_owner (owner_rom.mpr ha), deviceRead, hlen]

/-- Every device but the cartridge answers every read of its ranges (R61-R66). -/
theorem deviceRead_ok (s : State) {d : Device} (a : Word) (hd : d ≠ .rom) : ∃ v, deviceRead s d a = .ok v := by
  cases d with
  | rom => exact absurd rfl hd
  | vram | wram | hram => exact ⟨_, rfl⟩
  | ppu | interrupt =>
    simp only [deviceRead]
    split <;> exact ⟨_, rfl⟩

theorem readByte_ok_of_writable {k : Access} {s : State} {a : Word} (h : Writable s.cfg a) :
    ∃ v, readByte k s a = .ok v := by
  obtain ⟨d, hd, hrom⟩ := h
  rw [readByte_of_owner hd]
  exact deviceRead_ok s a hrom

/-- Settles O44: the mapped addresses are those with an owner, and the cartridge owns exactly those below 0x8000. -/
theorem addressMap : Obligations.AddressMap := by
  intro k s a n mapped
  have hmapped : mapped ↔ (owner s.cfg a).isSome = true := (owner_isSome_iff s.cfg a).symm
  refine ⟨fun hgap => ?_, fun hrom hlen => readByte_past_rom hrom hlen, fun hm hlen => ?_, ?_⟩
  · exact readByte_unmapped (by simpa [hmapped] using hgap)
  · rcases Nat.lt_or_ge n 0x8000 with hrom | hram
    · exact ⟨_, readByte_rom hrom (hlen hrom)⟩
    · exact readByte_ok_of_writable ((writable_iff s.cfg a).mpr ⟨hmapped.mp hm, hram⟩)
  · rw [hmapped]
    exact writable_iff s.cfg a

/-! ### Byte and word accesses (R52-R58) -/

/-- Settles O46: a byte write answers at every writable address, stores its byte and touches nothing else. -/
theorem byteWrites : Obligations.ByteWrites := by
  intro s a v
  refine ⟨fun hw => ?_, writeByte_unmapped v, writeByte_rom v⟩
  obtain ⟨t, ht⟩ := writeByte_ok v hw
  obtain ⟨hregs, hcycles, hkept⟩ := writeByte_frame ht
  exact ⟨t, ht, writeByte_stored ht, hregs, hcycles, hkept⟩

/-- A word read is a byte read, the ownership check and a second byte read (R54). -/
theorem readWord_eq (k : Access) (s : State) (a : Word) : readWord k s a =
    (readByte k s a).bind fun lo =>
      if owner s.cfg (a + 1#16) = owner s.cfg a then (readByte k s (a + 1#16)).map fun hi => joinBytes hi lo
      else .error (.deviceRange (a + 1#16)) := by
  unfold readWord readByte
  cases howner : owner s.cfg a with
  | none => rfl
  | some d =>
    simp only
    cases hlo : deviceRead s d a with
    | error e => rfl
    | ok lo =>
      by_cases hsame : owner s.cfg (a + 1#16) = some d
      · simp only [hsame, Except.bind, ↓reduceIte]
        cases deviceRead s d (a + 1#16) <;> rfl
      · simp [hsame, Except.bind]

/-- A word write is a byte write, the ownership check and a second byte write (R56). -/
theorem writeWord_eq (s : State) (a v : Word) : writeWord s a v =
    (writeByte s a (lowByte v)).bind fun t =>
      if owner s.cfg (a + 1#16) = owner s.cfg a then writeByte t (a + 1#16) (highByte v)
      else .error (.deviceRange (a + 1#16)) := by
  cases howner : owner s.cfg a with
  | none => rw [writeWord_unmapped v howner, writeByte_unmapped _ howner, Except.bind]
  | some d =>
    rw [writeWord, howner, ← deviceWrite_eq_writeByte _ howner]
    simp only
    cases hlo : deviceWrite s d a (lowByte v) with
    | error e => rfl
    | ok t =>
      have hcfg : t.cfg = s.cfg := writeByte_cfg (deviceWrite_eq_writeByte _ howner ▸ hlo)
      by_cases hsame : owner s.cfg (a + 1#16) = some d
      · simp [hsame, Except.bind, deviceWrite_eq_writeByte (s := t) (highByte v) (hcfg ▸ hsame)]
      · simp [hsame, Except.bind]

/-- Settles O47: every clause is a case of the two equations of word accesses. -/
theorem wordAccesses : Obligations.WordAccesses := by
  intro k s a v
  rw [readWord_eq, writeWord_eq]
  refine ⟨fun e h => ?_, fun lo h hdev => ?_, fun lo hi h hdev h' => ?_, fun lo e h hdev h' => ?_, fun e h => ?_,
    fun t => ?_, fun t h hdev => ?_⟩
  · simp [h, Except.bind]
  · simp [h, hdev, Except.bind]
  · exact ⟨joinBytes hi lo, by simp [h, hdev, h', Except.bind, Except.map], by rw [joinBytes_toNat, Nat.mul_comm]⟩
  · simp [h, hdev, h', Except.bind, Except.map]
  · simp [h, Except.bind]
  · cases writeByte s a (lowByte v) with
    | error e => simp [Except.bind]
    | ok u => by_cases hdev : owner s.cfg (a + 1#16) = owner s.cfg a <;> simp [hdev, Except.bind]
  · simp [h, hdev, Except.bind]

/-! ### The word round trip (R76) -/

/-- What a word write leaves to be read back: each of its bytes as its address keeps it. -/
theorem writeWord_readWord (k : Access) {s : State} {a : Word} (v : Word) (h : WordWritable s.cfg a) :
    ∃ t, writeWord s a v = .ok t ∧
      readWord k t a =
        .ok (joinBytes (valueAfterStore s (a + 1#16) (highByte v)) (valueAfterStore s a (lowByte v))) := by
  obtain ⟨t, ht⟩ := writeWord_ok v h
  obtain ⟨-, -, ⟨-, -, -, -, hcfg, -⟩, hlo, hhi, -⟩ := writeWord_stored ht
  obtain ⟨d, hd, -, hd'⟩ := h
  exact ⟨t, ht, readWord_of_bytes (hcfg ▸ hd) (hcfg ▸ hd') (hlo k) (hhi k)⟩

/-- Every byte but STAT and LY reads back as it was stored. -/
theorem valueAfterStore_plain (s : State) {a : Word} (v : Byte) (hstat : a ≠ 0xFF41#16) (hly : a ≠ 0xFF44#16) :
    valueAfterStore s a v = v := by
  simp [valueAfterStore, hstat, hly]

/-- At STAT and LY the byte whose bits are those the read computes, inverted, does not read back (R65). -/
theorem exists_valueAfterStore_ne (s : State) {a : Word} (h : a = 0xFF41#16 ∨ a = 0xFF44#16) :
    ∃ v, valueAfterStore s a v ≠ v := by
  refine ⟨~~~ valueAfterStore s a 0#8, fun heq => ?_⟩
  have hbit := congrArg (BitVec.getLsbD · 0) heq
  rcases h with rfl | rfl <;> simp [valueAfterStore] at hbit

/-- A word over STAT or LY that does not read back: its byte there is one that does not. -/
theorem exists_word_not_read_back (k : Access) {s : State} {a b : Word} (h : WordWritable s.cfg a)
    (hb : b = 0xFF41#16 ∨ b = 0xFF44#16) (hcover : b = a ∨ b = a + 1#16) :
    ∃ v t, writeWord s a v = .ok t ∧ readWord k t a ≠ .ok v := by
  obtain ⟨x, hx⟩ := exists_valueAfterStore_ne s hb
  obtain ⟨t, hwrite, hread⟩ := writeWord_readWord k (joinBytes x x) h
  refine ⟨joinBytes x x, t, hwrite, fun hback => ?_⟩
  have hword := Except.ok.inj (hread.symm.trans hback)
  rcases hcover with rfl | rfl
  · exact hx (by simpa using congrArg lowByte hword)
  · exact hx (by simpa using congrArg highByte hword)

/-- A word inside the register block is writable. -/
theorem wordWritable_of_ppu_range (cfg : Config) {a : Word} (h : 0xFF40 ≤ a.toNat) (h' : a.toNat < 0xFF4B) :
    WordWritable cfg a := by
  have hnext : (a + 1#16).toNat = a.toNat + 1 := by
    rw [BitVec.toNat_add_of_lt] <;> simp
    omega
  exact ⟨.ppu, owner_of_ppu_range h (by omega), by decide, owner_of_ppu_range (by omega) (by omega)⟩

/-- Settles O48: a word reads back unless one of its bytes lies on STAT or LY, and is written only where one device other
than the cartridge owns both. -/
theorem wordRoundTrip : Obligations.WordRoundTrip := by
  intro k s a covers
  refine ⟨fun hw hplain v => ?_, fun hcovers => ?_, fun hnot v => ?_⟩
  · obtain ⟨t, hwrite, hread⟩ := writeWord_readWord k v hw
    obtain ⟨h40, h41, h43, h44⟩ : a ≠ 0xFF40#16 ∧ a ≠ 0xFF41#16 ∧ a ≠ 0xFF43#16 ∧ a ≠ 0xFF44#16 := by
      simpa [covers] using hplain
    rw [valueAfterStore_plain s _ h41 h44, valueAfterStore_plain s _ (by bv_omega) (by bv_omega),
      joinBytes_high_low] at hread
    exact ⟨t, hwrite, hread⟩
  · have hw : WordWritable s.cfg a := by
      rcases hcovers with rfl | rfl | rfl | rfl <;> exact wordWritable_of_ppu_range _ (by decide) (by decide)
    rcases hcovers with rfl | rfl | rfl | rfl
    · exact exists_word_not_read_back k hw (.inl rfl) (.inr rfl)
    · exact exists_word_not_read_back k hw (.inl rfl) (.inl rfl)
    · exact exists_word_not_read_back k hw (.inr rfl) (.inr rfl)
    · exact exists_word_not_read_back k hw (.inr rfl) (.inl rfl)
  · cases hwrite : writeWord s a v with
    | error e => exact ⟨e, rfl⟩
    | ok t => exact absurd (writeWord_cases hwrite).1 hnot

/-! ### The cartridge image and the initial RAM in memory (R67, R294) -/

/-- A write that may be left out leaves every other cell as it was. -/
theorem read_ite_write_other (c : Prop) [Decidable c] (m : Memory) {a b : Nat} (v : Byte) (h : b ≠ a) :
    Memory.read (if c then Memory.write m a v else m) b = Memory.read m b := by
  split
  · exact Memory.read_write_other m v h
  · rfl

/-- The image's bytes at their addresses, below 0x8000 only; every other cell as before (R67). -/
theorem read_loadImage (vs : List Byte) (a b : Nat) (m : Memory) :
    Memory.read (loadImage vs a m) b =
      if a ≤ b ∧ b < 0x8000 then vs[b - a]?.getD (Memory.read m b) else Memory.read m b := by
  induction vs generalizing a m with
  | nil => simp [loadImage]
  | cons v vs ih =>
    rw [loadImage, ih]
    by_cases hba : b = a
    · subst hba
      rw [if_neg (show ¬ (b + 1 ≤ b ∧ b < 0x8000) by omega)]
      by_cases hb : b < 0x8000 <;> simp [hb]
    · rw [read_ite_write_other _ m v hba]
      by_cases hle : a + 1 ≤ b
      · have hsub : b - a = b - (a + 1) + 1 := by omega
        simp [hsub, hle, show a ≤ b by omega]
      · rw [if_neg (by omega), if_neg (by omega)]

theorem wf_loadImage (vs : List Byte) (a : Nat) {m : Memory} (hm : Memory.wf m = true) :
    Memory.wf (loadImage vs a m) = true := by
  induction vs generalizing a m with
  | nil => exact hm
  | cons v vs ih =>
    refine ih (a + 1) ?_
    split
    · exact Memory.wf_write m a v (by omega) hm
    · exact hm

theorem isRamAddress_lt {cfg : Config} {a : Nat} (h : isRamAddress cfg a = true) : a < 0x10000 := by
  simp only [isRamAddress, Bool.and_eq_true, decide_eq_true_eq] at h
  exact h.1

/-- The bytes `RAM_INIT` gives are bytes of the backing storage (R61-R64, R294). -/
theorem storageAddr_of_isRamAddress {cfg : Config} {a : Word} (h : isRamAddress cfg a.toNat = true) :
    StorageAddr cfg a := by
  have howner : scanBindings (busBindings cfg.mapHram) a.toNat = owner cfg a := rfl
  unfold StorageAddr
  rw [isRamAddress, howner] at h
  rcases hd : owner cfg a with _ | d
  · simp [hd] at h
  · cases d <;> simp [hd] at h ⊢
    omega

/-- `RAM_INIT` gives no byte of the cartridge. -/
theorem isRamAddress_ge {cfg : Config} {a : Nat} (h : isRamAddress cfg a = true) : 0x8000 ≤ a := by
  have ha : (BitVec.ofNat 16 a).toNat = a := by simpa using isRamAddress_lt h
  have hstorage : StorageAddr cfg (BitVec.ofNat 16 a) := storageAddr_of_isRamAddress (ha.symm ▸ h)
  rw [← ha]
  rcases hstorage with hd | hd | hd | ⟨hd, -⟩ <;> exact owner_ge_rom hd (by decide)

/-- The initial RAM leaves every other cell as it was. -/
theorem read_loadRam_other {cfg : Config} {a : Nat} (h : isRamAddress cfg a ≠ true) (cells : List Host.Cell) (m : Memory) :
    Memory.read (loadRam cfg cells m) a = Memory.read m a := by
  induction cells generalizing m with
  | nil => rfl
  | cons c cells ih =>
    obtain ⟨b, w⟩ := c
    rw [loadRam, ih]
    split
    · exact Memory.read_write_other m w fun hab => h (hab ▸ ‹_›)
    · rfl

/-- A RAM cell that is given one byte only holds it, whether it is still to be loaded or was before. -/
theorem read_loadRam {cfg : Config} {a : Nat} {v : Byte} (h : isRamAddress cfg a = true) (cells : List Host.Cell)
    (m : Memory) (hone : ∀ w, (a, w) ∈ cells → w = v) (hgiven : (a, v) ∈ cells ∨ Memory.read m a = v) :
    Memory.read (loadRam cfg cells m) a = v := by
  induction cells generalizing m with
  | nil => simpa [loadRam] using hgiven
  | cons c cells ih =>
    obtain ⟨b, w⟩ := c
    refine ih _ (fun x hx => hone x (List.mem_cons_of_mem _ hx)) ?_
    by_cases hba : b = a
    · subst hba
      have hw : w = v := hone w (List.mem_cons_self ..)
      exact .inr (by simp [h, hw])
    · rw [read_ite_write_other _ m w (Ne.symm hba)]
      simpa [Ne.symm hba] using hgiven

theorem wf_loadRam (cfg : Config) (cells : List Host.Cell) {m : Memory} (hm : Memory.wf m = true) :
    Memory.wf (loadRam cfg cells m) = true := by
  induction cells generalizing m with
  | nil => exact hm
  | cons c cells ih =>
    refine ih ?_
    split
    · exact Memory.wf_write m _ _ (isRamAddress_lt ‹_›) hm
    · exact hm

/-! ### Construction (R51, R70, R223, R290) -/

/-- The ranges of the address map are disjoint, so every registration succeeds. -/
theorem registerRanges_busBindings (mapHram : Bool) :
    registerRanges [] (busBindings mapHram) = .ok (busBindings mapHram) := by
  cases mapHram <;> rfl

/-- The machine construction gives for an image that passes its checks. -/
def constructed (bytes : List Byte) (params : Config) (ram : List Host.Cell) : State :=
  let cfg := { params with romLen := bytes.length, romRest := bytes.drop 0x8000 }
  { State.reset with mem := loadRam cfg ram (loadImage bytes 0 []), cfg := cfg }

theorem construct_short {bytes : List Byte} (params : Config) (ram : List Host.Cell) (h : bytes.length < 0x148) :
    construct (some bytes) params ram = .error .imageTooShort := by
  simp [construct, h]

/-- With a type byte the image is long enough, and the type decides (R70). -/
theorem construct_of_kind {bytes : List Byte} {kind : Byte} (params : Config) (ram : List Host.Cell)
    (h : bytes[0x147]? = some kind) : construct (some bytes) params ram =
      if kind = 0#8 then .ok (constructed bytes params ram) else .error (.unsupportedCartridge kind) := by
  have hlen : ¬ bytes.length < 0x148 := by
    have := (List.getElem?_eq_some_iff.mp h).1
    omega
  have hkind : bytes.getD 0x147 0 = kind := by simp [List.getD, h]
  rw [construct, if_neg hlen, hkind, registerRanges_busBindings]
  by_cases hzero : kind = 0#8 <;> simp [hzero, constructed]

/-- What construction answers is the constructed machine. -/
theorem construct_eq_ok {bytes : List Byte} {params : Config} {ram : List Host.Cell} {s : State}
    (h : construct (some bytes) params ram = .ok s) : s = constructed bytes params ram := by
  rcases Nat.lt_or_ge 0x147 bytes.length with hlen | hlen
  · rw [construct_of_kind params ram (List.getElem?_eq_getElem hlen)] at h
    split at h
    · exact (Except.ok.inj h).symm
    · cases h
  · rw [construct_short params ram (by omega)] at h
    cases h

/-- Settles O55: construction by the image's length and type byte, registration by the intersection test. -/
theorem configurationErrors : Obligations.ConfigurationErrors := by
  constructor
  · refine fun params ram => ⟨rfl, fun bytes => ⟨construct_short params ram, fun kind hkind => ?_⟩⟩
    rw [construct_of_kind params ram hkind]
    exact ⟨fun hne => if_neg hne, fun hzero => ⟨_, if_pos hzero⟩⟩
  · intro table b
    constructor
    · rintro ⟨r, hr, hlo, hhi⟩
      exact if_pos (List.any_eq_true.mpr ⟨r, hr, by simp [overlaps, hlo, hhi]⟩)
    · intro hdisjoint
      refine if_neg fun hany => ?_
      obtain ⟨r, hr, hmeet⟩ := List.any_eq_true.mp hany
      exact hdisjoint r hr (by simpa [overlaps] using hmeet)

/-- The cells below 0x8000 of a constructed machine are the image's bytes (R67). -/
theorem constructed_rom (bytes : List Byte) (params : Config) (ram : List Host.Cell) {a : Nat} {v : Byte} (ha : a < 0x8000)
    (h : bytes[a]? = some v) : Memory.read (constructed bytes params ram).mem a = v := by
  have hrom : isRamAddress (constructed bytes params ram).cfg a ≠ true := fun hram => by
    have := isRamAddress_ge hram
    omega
  calc Memory.read (constructed bytes params ram).mem a
      = Memory.read (loadImage bytes 0 []) a := read_loadRam_other hrom ram _
    _ = v := by simp [read_loadImage, ha, h]

/-- The image comes back whole: its first 32 KiB from the ROM cells, the rest from the parameters (R67). -/
theorem cartridgeData_constructed (bytes : List Byte) (params : Config) (ram : List Host.Cell) :
    cartridgeData (constructed bytes params ram) = bytes := by
  have hcells : (List.range (min bytes.length 0x8000)).map (Memory.read (constructed bytes params ram).mem) =
      bytes.take 0x8000 := by
    refine List.ext_getElem (by simp [Nat.min_comm]) fun i hi _ => ?_
    simp only [List.length_map, List.length_range, Nat.lt_min] at hi
    rw [List.getElem_map, List.getElem_range, List.getElem_take]
    exact constructed_rom bytes params ram hi.2 (List.getElem?_eq_getElem hi.1)
  calc cartridgeData (constructed bytes params ram)
      = bytes.take 0x8000 ++ bytes.drop 0x8000 := congrArg (· ++ bytes.drop 0x8000) hcells
    _ = bytes := List.take_append_drop ..

/-- A constructed machine meets the invariant: its registers are zero but PC, its memory was written cell by cell. -/
theorem constructed_inv (bytes : List Byte) (params : Config) (ram : List Host.Cell) :
    State.Inv (constructed bytes params ram) := by
  obtain ⟨-, hregs⟩ := resetSatisfiesTheInvariant
  exact ⟨wf_loadRam _ ram (wf_loadImage bytes 0 Memory.wf_nil), hregs⟩

/-- Settles O56: the registers are those of reset, ROM cells hold the image and RAM cells what they were given. -/
theorem constructedMachine : Obligations.ConstructedMachine := by
  intro bytes params ram s hs
  obtain rfl := construct_eq_ok hs
  refine ⟨rfl, rfl, rfl, rfl, rfl, rfl, rfl, rfl, rfl, rfl, cartridgeData_constructed bytes params ram,
    constructed_inv bytes params ram, fun k a ha v hv => ?_, fun k a v hram hgiven hone => ?_⟩
  · have hlen : a.toNat < (constructed bytes params ram).cfg.romLen := (List.getElem?_eq_some_iff.mp hv).1
    rw [readByte_rom ha hlen, constructed_rom bytes params ram ha hv]
  · rw [readByte_storage k (storageAddr_of_isRamAddress hram)]
    exact congrArg Except.ok (read_loadRam hram ram _ hone (.inl hgiven))

end Sys2Proof.Machine
end

section
/-! PROOF. The encoding: decoding and encoding invert each other (R90-R92, R106), the bytes that spell no instruction and
the opcodes a table populates (R103-R105, R110, R215), the step over the instruction at PC (R91, R220) and its cost (R111,
R302). -/

namespace Sys2Proof

/-! ### Decoding by the row of the opcode (R103, R106) -/

theorem decode_op0 {op : Byte} {i : Instr} (hrow : lookupRow op = some (.op0 i)) (rest : List Byte) :
    decode (op :: rest) = .ok (i, rest) := by simp only [decode, hrow]

theorem decode_op8 {op : Byte} {mk : Byte → Instr} (hrow : lookupRow op = some (.op8 mk)) (n : Byte) (rest : List Byte) :
    decode (op :: n :: rest) = .ok (mk n, rest) := by simp only [decode, hrow]

theorem decode_op16 {op : Byte} {mk : Word → Instr} (hrow : lookupRow op = some (.op16 mk)) (lo hi : Byte)
    (rest : List Byte) : decode (op :: lo :: hi :: rest) = .ok (mk (joinBytes hi lo), rest) := by simp only [decode, hrow]

/-- The inversion of `decode`: the row of the first byte asks for no, one or two bytes, and they are there. -/
theorem decode_cases {op : Byte} {tail rest : List Byte} {i : Instr} (h : decode (op :: tail) = .ok (i, rest)) :
    (lookupRow op = some (.op0 i) ∧ tail = rest) ∨
    (∃ mk n, lookupRow op = some (.op8 mk) ∧ tail = n :: rest ∧ mk n = i) ∨
    (∃ mk lo hi, lookupRow op = some (.op16 mk) ∧ tail = lo :: hi :: rest ∧ mk (joinBytes hi lo) = i) := by
  cases hrow : lookupRow op with
  | none =>
    simp only [decode, hrow] at h
    cases h
  | some row =>
    cases row with
    | op0 j =>
      cases (decode_op0 hrow tail).symm.trans h
      exact .inl ⟨rfl, rfl⟩
    | op8 mk =>
      rcases tail with _ | ⟨n, tail⟩
      · simp only [decode, hrow] at h
        cases h
      · cases (decode_op8 hrow n tail).symm.trans h
        exact .inr (.inl ⟨mk, n, rfl, rfl, rfl⟩)
    | op16 mk =>
      rcases tail with _ | ⟨lo, _ | ⟨hi, tail⟩⟩
      · simp only [decode, hrow] at h
        cases h
      · simp only [decode, hrow] at h
        cases h
      · cases (decode_op16 hrow lo hi tail).symm.trans h
        exact .inr (.inr ⟨mk, lo, hi, rfl, rfl, rfl⟩)

/-- Settles O58: the row at an instruction's opcode takes exactly the bytes the encoder put after it. -/
theorem decodeInvertsEncode : Obligations.DecodeInvertsEncode := by
  intro i rest
  rcases rowOf i with ⟨hrow, henc⟩ | ⟨mk, n, hrow, henc, hmk⟩ | ⟨mk, nn, hrow, henc, hmk⟩
  · calc decode (encode i ++ rest)
        = decode (i.opcode :: rest) := by rw [henc, List.singleton_append]
      _ = .ok (i, rest) := decode_op0 hrow rest
  · calc decode (encode i ++ rest)
        = decode (i.opcode :: n :: rest) := by rw [henc, List.cons_append, List.singleton_append]
      _ = .ok (i, rest) := by rw [decode_op8 hrow, hmk]
  · calc decode (encode i ++ rest)
        = decode (i.opcode :: lowByte nn :: highByte nn :: rest) := by
          rw [henc, List.cons_append, List.cons_append, List.singleton_append]
      _ = .ok (i, rest) := by rw [decode_op16 hrow, Machine.joinBytes_high_low, hmk]

/-- Settles O59: the row that decoded the bytes stands at its opcode byte, so its instruction is encoded with them. -/
theorem encodeInvertsDecode : Obligations.EncodeInvertsDecode := by
  intro bytes rest i h
  cases bytes with
  | nil => cases h
  | cons op tail =>
    rcases decode_cases h with ⟨hrow, rfl⟩ | ⟨mk, n, hrow, rfl, rfl⟩ | ⟨mk, lo, hi, hrow, rfl, rfl⟩
    · have henc : encode i = [op] := rowEncodes hrow
      rw [henc, List.singleton_append]
    · have henc : encode (mk n) = [op, n] := rowEncodes hrow n
      rw [henc, List.cons_append, List.singleton_append]
    · have henc : encode (mk (joinBytes hi lo)) = [op, lo, hi] := by
        rw [rowEncodes hrow (joinBytes hi lo), Machine.lowByte_joinBytes, Machine.highByte_joinBytes]
      rw [henc, List.cons_append, List.cons_append, List.singleton_append]

theorem decode_encode (i : Instr) : decode (encode i) = .ok (i, []) := by
  rw [← List.append_nil (encode i), decodeInvertsEncode i []]

/-- Settles O60: each word is the encoding of its instruction. -/
theorem specWordsDecode : Obligations.SpecWordsDecode :=
  ⟨decode_encode .xorA, decode_encode (.jpnn 0x0200), decode_encode .ldBC, decode_encode .ldAAtHL, decode_encode .halt,
    decode_encode (.ldSPnn 0xE000), decode_encode (.ldhAtnA 0x40), decode_encode (.ldHLSPe 0x02), decode_encode .incAtHL,
    decode_encode (.jrNZe 0xFC), decode_encode (.callCnn 0x0300), decode_encode .rst38, decode_encode .pushAF,
    decode_encode .popBC, decode_encode .addHLHL, decode_encode .ei, decode_encode (.stop 0x00)⟩

/-! ### The bytes that spell no instruction (R104, R105) -/

theorem opcode_of_encode {i : Instr} {op : Byte} {tail : List Byte} (h : encode i = op :: tail) : i.opcode = op := by
  rw [Instr.opcode, h, List.headD_cons]

/-- Every byte is the opcode of an instruction: the table is dense (R103). -/
theorem exists_opcode_eq (op : Byte) : ∃ i : Instr, i.opcode = op := by
  obtain ⟨row, hrow⟩ := Option.isSome_iff_exists.mp (lookupRow_isSome op)
  cases row with
  | op0 i => exact ⟨i, opcode_of_encode (rowEncodes hrow)⟩
  | op8 mk => exact ⟨mk 0, opcode_of_encode (rowEncodes hrow 0)⟩
  | op16 mk => exact ⟨mk 0, opcode_of_encode (rowEncodes hrow 0)⟩

/-- The unassigned rows are the instructions that are not well-formed, at their opcodes. -/
theorem unassigned_opcode (i : Instr) : Instr.unassigned i.opcode = if i.wf then none else some i := by
  cases i <;> rfl

/-- The unassigned row of a byte is the ill-formed instruction of that opcode. -/
theorem unassigned_eq_some {op : Byte} {i : Instr} (h : Instr.unassigned op = some i) : i.opcode = op ∧ i.wf = false := by
  obtain ⟨j, rfl⟩ := exists_opcode_eq op
  rw [unassigned_opcode] at h
  cases hwf : j.wf with
  | true =>
    rw [hwf, if_pos rfl] at h
    cases h
  | false =>
    rw [hwf, if_neg Bool.false_ne_true] at h
    cases h
    exact ⟨rfl, hwf⟩

/-- The legal opcodes are the bytes that have no unassigned row (R104, R105, R110). -/
theorem legalOpcode_eq (op : Byte) : legalOpcode op = (Instr.unassigned op).isNone := by
  obtain ⟨i, rfl⟩ := exists_opcode_eq op
  rw [legalOpcode_opcode, unassigned_opcode]
  cases i.wf <;> rfl

/-- An ill-formed instruction is its opcode byte alone (R105, R106). -/
theorem encode_of_not_wf {i : Instr} (h : i.wf = false) : encode i = [i.opcode] := by
  cases i <;> cases h <;> rfl

end Sys2Proof

namespace Sys2Proof.Machine

/-- The meaning of an ill-formed instruction is the fatal error with its opcode (R215). -/
theorem exec_of_not_wf {i : Instr} (h : i.wf = false) (s : State) : exec i s = unknownOpcodeAt i.opcode s := by
  cases i <;> cases h <;> rfl

/-- Settles O31: an unassigned row is the ill-formed instruction of its byte, one byte long, that stops. -/
theorem unassignedRowsStop : Obligations.UnassignedRowsStop := by
  constructor
  · intro op
    unfold Instr.unassigned
    split <;> simp_all
  · intro op i h
    obtain ⟨rfl, hwf⟩ := unassigned_eq_some h
    exact ⟨encode_of_not_wf hwf ▸ decode_encode i, hwf, exec_of_not_wf hwf⟩

/-! ### The fetch (R91, R92, R103, R110) -/

theorem fetchInstr_error {s : State} {e : Fault} (h : readByte .fetch s s.pc = .error e) : fetchInstr s = .error e := by
  simp only [fetchInstr, fetchByte_error h]

/-- An opcode with an unassigned row is populated under no parameters (R104, R105). -/
theorem populated_of_unassigned (cfg : Config) {op : Byte} (h : (Instr.unassigned op).isSome = true) :
    populated cfg op = false := by
  simp [populated, legalOpcode_eq, Option.isNone_eq_false_iff.mpr h]

/-- Settles O33: the fetch fails with the fault of the opcode's read or of the table; each preset populates the legal
opcodes of its list. -/
theorem opcodeFetchFaults : Obligations.OpcodeFetchFaults := by
  refine ⟨fun s e hrun hread => step_of_fetch_error hrun (fetchInstr_error hread),
    fun s op hrun hread hpop => step_of_fetch_error hrun (fetchInstr_unpopulated hread hpop),
    fun cfg op => ⟨populated_of_unassigned cfg, fun hset => ?_, fun hset => ?_, fun hset => ?_, fun ops hset => ?_⟩⟩ <;>
    simp only [populated, legalOpcode_eq, hset]
  · have hlegal : op = 0xAF#8 ∨ op = 0xC3#8 → Instr.unassigned op = none := by
      rintro (rfl | rfl) <;> rfl
    simpa using hlegal
  · simp
  · simp
  · simp

/-- The instruction at PC is fetched, and PC is left past its bytes (R91, R92). -/
theorem fetchInstr_of_instructionAt {s : State} {i : Instr} (h : InstructionAt s i)
    (hpop : populated s.cfg i.opcode = true) :
    fetchInstr s = .ok (i, s.setPC (s.pc + BitVec.ofNat 16 i.length)) := by
  obtain ⟨op, hop, hdec | ⟨n, hn, hdec⟩ | ⟨nn, hnn, hdec⟩⟩ := h
  · obtain ⟨hrow, -⟩ | ⟨-, -, -, ⟨⟩, -⟩ | ⟨-, -, -, -, ⟨⟩, -⟩ := decode_cases hdec
    have henc : encode i = [op] := rowEncodes hrow
    rw [opcode_of_encode henc] at hpop
    rw [fetchInstr_op0 hop hpop hrow, Instr.length, henc]
    rfl
  · obtain ⟨-, ⟨⟩⟩ | ⟨mk, _, hrow, ⟨⟩, rfl⟩ | ⟨-, -, -, -, ⟨⟩, -⟩ := decode_cases hdec
    have henc : encode (mk n) = [op, n] := rowEncodes hrow n
    rw [opcode_of_encode henc] at hpop
    rw [fetchInstr_op8 hop hpop hrow, hn, Instr.length, henc]
    rfl
  · obtain ⟨-, ⟨⟩⟩ | ⟨-, -, -, ⟨⟩, -⟩ | ⟨mk, _, _, hrow, ⟨⟩, hmk⟩ := decode_cases hdec
    obtain rfl : mk nn = i := by rw [← hmk, joinBytes_high_low]
    have henc : encode (mk nn) = [op, lowByte nn, highByte nn] := rowEncodes hrow nn
    rw [opcode_of_encode henc] at hpop
    rw [fetchInstr_op16 hop hpop hrow, hnn, Instr.length, henc]
    rfl

/-- Settles O32: the fetch gives the instruction at PC, and the step is its meaning, the interrupt phase, the picture
unit. -/
theorem stepRunsTheDecodedInstruction : Obligations.StepRunsTheDecodedInstruction :=
  fun _ _ hrun hat _ hpop => step_of_fetch hrun (fetchInstr_of_instructionAt hat hpop)

/-! ### The cost of a step (R111, R235, R302) -/

/-- The instruction part counts 4 to 24 cycles, 4 when halted (R111, R211). -/
theorem instructionPhase_cycles {s u : State} (hc : Config.wf s.cfg = true) (h : instructionPhase s = .next u) :
    4 ≤ u.cycles ∧ u.cycles ≤ 24 ∧ (s.halted = true → u.cycles = 4) := by
  rcases instructionPhase_next h with ⟨-, rfl⟩ | ⟨hrun, i, pc, -, hexec⟩
  · simp
  · obtain ⟨taken, hcost⟩ := (exec_answer hexec).cost
    have hlegal : legalOpcode i.opcode = true := by rw [legalOpcode_opcode, wf_of_exec_next hexec]
    obtain ⟨hlo, hhi⟩ := cycleCost_bounds hc i.opcode taken hlegal
    rw [hcost]
    exact ⟨hlo, hhi, by simp [hrun]⟩

/-- The interrupt phase adds at most five dispatches of 12 cycles (R235). -/
theorem interruptPhase_cycles {s t : State} (h : interruptPhase s = .next t) :
    s.cycles ≤ t.cycles ∧ t.cycles ≤ s.cycles + 60 := by
  rcases interruptPhase_next h with rfl | ⟨-, -, hcount, hcycles, -⟩ <;> omega

/-- A picture unit step of at most one line's cycles stays on its line or enters the next (R252, R253). -/
theorem ppuStep_at_most_one_line {n : Nat} {s : State} (hly : s.ppu.ly.toNat < 154) (hacc : s.ppu.acc < 456)
    (hn : n ≤ 456) :
    ((ppuStep n s).ppu.ly = s.ppu.ly ∧ (ppuStep n s).ppu.acc = s.ppu.acc + n) ∨
    ((ppuStep n s).ppu.ly.toNat = (s.ppu.ly.toNat + 1) % 154 ∧ (ppuStep n s).ppu.acc + 456 = s.ppu.acc + n) := by
  obtain ⟨hly', hacc', -⟩ := ppuStep_counts n s hly
  rcases Nat.lt_or_ge (s.ppu.acc + n) 456 with hsame | hnext
  · exact .inl ⟨BitVec.eq_of_toNat_eq (by omega), by omega⟩
  · exact .inr ⟨by omega, by omega⟩

/-- Settles O38: the instruction's cost and the dispatches' bound the count, which is less than a line's 456 cycles. -/
theorem stepCostBounds : Obligations.StepCostBounds := by
  intro s t hinv hc h
  obtain ⟨-, u, v, hu, hv, rfl⟩ := step_next h
  obtain ⟨-, -, -, hly, hacc⟩ := hinv
  obtain ⟨-, -, -, -, ely, eacc⟩ := ((instructionPhase_effect hu).trans (interruptPhase_effect hv)).outputs
  obtain ⟨hlo, hhi, hhalt⟩ := instructionPhase_cycles hc hu
  obtain ⟨hmore, hmost⟩ := interruptPhase_cycles hv
  rw [ppuStep_cycles, ← ely, ← eacc]
  exact ⟨by omega, by omega, fun hh => by have := hhalt hh; omega,
    ppuStep_at_most_one_line (ely ▸ hly) (eacc ▸ hacc) (by omega)⟩

end Sys2Proof.Machine
end

section
/-! PROOF. The 8-bit loads and stores (R120-R138): each instruction is one shared operation of Machine/Load8.lean at its
address, and the lemma of that operation gives the result, the frame and the faults. -/

namespace Sys2Proof.Machine

/-! ### What the shared loads answer -/

/-- A byte load into a register: its result and frame where the address reads, the read's fault where it does not. -/
theorem ldRegAt_spec (op : Byte) (r : Reg8) (a : Word) (s : State) :
    (∀ v, readByte .read s a = .ok v → ∃ t, ldRegAt op r a s = .next t ∧ t.reg r = v ∧ RegsKept s t [r] ∧ FlagsKept s t ∧
      PointersKept s t ∧ MachineKept s t ∧ t.cycles = cycleCost s.cfg op true) ∧
    (∀ e, readByte .read s a = .error e → ldRegAt op r a s = .fault e) :=
  ⟨fun v h => ⟨_, ldRegAt_ok h, setReg_charge_spec op r v s⟩, fun _ h => ldRegAt_error h⟩

theorem ldAAtHLThen_error {op : Byte} {next : Word} {s : State} {e : Fault} (h : readByte .read s s.hl = .error e) :
    ldAAtHLThen op next s = .fault e := by simp only [ldAAtHLThen, h, orFault]

/-! ### Loads of a register -/

/-- Settles O1: the register written is the destination, with what the source holds. -/
theorem loadRegisterFromRegister : Obligations.LoadRegisterFromRegister := by
  intro dst src s
  exact ⟨encodes_ldRegReg dst src, _, exec_ldRegReg dst src s, setReg_charge_spec _ dst (s.reg src) s⟩

/-- Settles O4: the register written is the destination, with the immediate. -/
theorem loadRegisterImmediate : Obligations.LoadRegisterImmediate := by
  intro dst n s
  exact ⟨encodes_ldRegImm dst n, immediateFaults _, _, exec_ldRegImm dst n s, setReg_charge_spec _ dst n s⟩

/-- Settles O2: the byte load at HL. -/
theorem loadRegisterFromHL : Obligations.LoadRegisterFromHL := by
  intro dst s
  rw [exec_ldRegAtHL]
  exact ⟨encodes_ldRegAtHL dst, ldRegAt_spec _ dst s.hl s⟩

/-- Settles O5: the five loads are the byte load into A, each at its address. -/
theorem loadAFromMemory : Obligations.LoadAFromMemory := by
  intro n nn
  refine ⟨⟨rfl, rfl, rfl, rfl, rfl⟩, ⟨rfl, rfl, rfl, rfl, rfl⟩, ⟨rfl, rfl, rfl, rfl, rfl⟩,
    ⟨⟨rfl, rfl, rfl, rfl, rfl⟩, immediateFaults _⟩, ⟨⟨rfl, rfl, rfl, rfl, rfl⟩, immediateFaults _⟩, fun s i a hia => ?_⟩
  have hexec : exec i s = ldRegAt i.opcode .a a s := by
    simp only [List.mem_cons, Prod.mk.injEq, List.not_mem_nil, or_false] at hia
    rcases hia with ⟨rfl, rfl⟩ | ⟨rfl, rfl⟩ | ⟨rfl, rfl⟩ | ⟨rfl, rfl⟩ | ⟨rfl, rfl⟩ <;> rfl
  rw [hexec]
  exact ldRegAt_spec i.opcode .a a s

/-- Settles O7: both loads are the one that steps HL, each with its next HL. -/
theorem loadAFromHLAndStep : Obligations.LoadAFromHLAndStep := by
  refine ⟨⟨rfl, rfl, rfl, rfl, rfl⟩, ⟨rfl, rfl, rfl, rfl, rfl⟩, fun s i next hin => ?_⟩
  have hexec : exec i s = ldAAtHLThen i.opcode next s := by
    simp only [List.mem_cons, Prod.mk.injEq, List.not_mem_nil, or_false] at hin
    rcases hin with ⟨rfl, rfl⟩ | ⟨rfl, rfl⟩ <;> rfl
  rw [hexec]
  exact ⟨fun _ hread => ldAAtHLThen_ok hread, fun _ hread => ldAAtHLThen_error hread⟩

/-! ### Stores -/

/-- Settles O3: both stores are the byte store at HL, each with its byte. -/
theorem storeAtHL : Obligations.StoreAtHL := by
  refine fun src n => ⟨encodes_ldAtHLReg src, ⟨⟨rfl, rfl, rfl, rfl, rfl⟩, immediateFaults _⟩, fun s i v hiv => ?_⟩
  have hexec : exec i s = storeByte i.opcode s.hl v s := by
    simp only [List.mem_cons, Prod.mk.injEq, List.not_mem_nil, or_false] at hiv
    rcases hiv with ⟨rfl, rfl⟩ | ⟨rfl, rfl⟩
    · exact exec_ldAtHLReg src s
    · rfl
  rw [hexec]
  exact storeByte_spec i.opcode s.hl v s

/-- Settles O6: the five stores are the byte store of A, each at its address. -/
theorem storeAToMemory : Obligations.StoreAToMemory := by
  intro n nn
  refine ⟨⟨rfl, rfl, rfl, rfl, rfl⟩, ⟨rfl, rfl, rfl, rfl, rfl⟩, ⟨rfl, rfl, rfl, rfl, rfl⟩,
    ⟨⟨rfl, rfl, rfl, rfl, rfl⟩, immediateFaults _⟩, ⟨⟨rfl, rfl, rfl, rfl, rfl⟩, immediateFaults _⟩, fun s i a hia => ?_⟩
  have hexec : exec i s = storeByte i.opcode a (s.reg .a) s := by
    simp only [List.mem_cons, Prod.mk.injEq, List.not_mem_nil, or_false] at hia
    rcases hia with ⟨rfl, rfl⟩ | ⟨rfl, rfl⟩ | ⟨rfl, rfl⟩ | ⟨rfl, rfl⟩ | ⟨rfl, rfl⟩ <;> rfl
  rw [hexec]
  exact storeByte_spec i.opcode a (s.reg .a) s

/-- Settles O8: both stores are the one that steps HL, each with its next HL. -/
theorem storeAAtHLAndStep : Obligations.StoreAAtHLAndStep := by
  refine ⟨⟨rfl, rfl, rfl, rfl, rfl⟩, ⟨rfl, rfl, rfl, rfl, rfl⟩, fun s i next hin => ?_⟩
  have hexec : exec i s = ldAtHLAThen i.opcode next s := by
    simp only [List.mem_cons, Prod.mk.injEq, List.not_mem_nil, or_false] at hin
    rcases hin with ⟨rfl, rfl⟩ | ⟨rfl, rfl⟩ <;> rfl
  rw [hexec]
  exact ldAtHLAThen_spec i.opcode next s

end Sys2Proof.Machine
end

section
/-! PROOF. The 16-bit loads and the stack (R140-R146, R183): each instruction is one shared operation of
Machine/Load16.lean, and the lemma of that operation gives the result, the frame and the faults. -/

namespace Sys2Proof.Machine

/-! ### The pairs (R11, R23, R24) -/

theorem joinBytes_toNat_high_first (hi lo : Byte) : (joinBytes hi lo).toNat = 256 * hi.toNat + lo.toNat := by
  rw [joinBytes_toNat, Nat.mul_comm]

/-- What POP writes PUSH reads back, AF with its low nibble cleared (R24). -/
theorem Regs.getStackPair_setStackPair_eq (g : Regs) (p : StackPair) (v : Word) :
    (g.setStackPair p v).getStackPair p = if p = .af then v &&& 0xFFF0#16 else v := by
  by_cases hp : p = .af
  · subst hp
    exact join_masked v
  · rw [if_neg hp, Regs.getStackPair_setStackPair g p v hp]

theorem Regs.setStackPair_f_of_ne (g : Regs) {p : StackPair} (v : Word) (h : p ≠ .af) :
    (g.setStackPair p v).f = g.f := by
  cases p with
  | bc | de | hl => rfl
  | af => exact absurd rfl h

/-! ### What the shared operations answer -/

/-- A register file written in SP only: the operand registers, F and PC stay. -/
theorem kept_of_sp_written {s t : State} {v : Word} (h : t.regs = { s.regs with sp := v }) :
    t.sp = v ∧ RegsKept s t [] ∧ FlagsKept s t ∧ t.pc = s.pc := by
  refine ⟨by rw [State.sp, h], fun q _ => ?_, by rw [FlagsKept, h], by rw [State.pc, h, State.pc]⟩
  rw [State.reg, h]
  cases q <;> rfl

/-- A store keeps the parameters, so the cost charged after it is that of the machine before it. -/
theorem StoreKept.charge_cycles {s t : State} (h : StoreKept s t) (op : Byte) :
    (t.charge op).cycles = cycleCost s.cfg op true := by
  obtain ⟨-, -, -, -, hcfg, -⟩ := h
  rw [State.charge_cycles, hcfg]

theorem writeWord_faults (a v : Word) (s : State) (k : State → Out) :
    WordStoreFaults s a (orFault (writeWord s a v) k) := by
  refine ⟨⟨fun h => ?_, fun h => ?_⟩, fun d h hd h' => ?_⟩
  · rw [writeWord_unmapped v h, orFault]
  · rw [writeWord_rom v h, orFault]
  · rw [writeWord_straddle v h hd h', orFault]

/-- A word store: the word, the frame and the faults. -/
theorem storeWord_spec (op : Byte) (a v : Word) (s : State) :
    (WordWritable s.cfg a → ∃ t, (orFault (writeWord s a v) fun t => .next (t.charge op)) = .next t ∧
      StoredWord s t a v ∧ RegsKept s t [] ∧ FlagsKept s t ∧ PointersKept s t ∧ StoreKept s t ∧
      t.cycles = cycleCost s.cfg op true) ∧
    WordStoreFaults s a (orFault (writeWord s a v) fun t => .next (t.charge op)) := by
  refine ⟨fun hw => ?_, writeWord_faults a v s _⟩
  obtain ⟨t, ht⟩ := writeWord_ok v hw
  obtain ⟨hregs, -, hkept, hstored⟩ := writeWord_stored ht
  obtain ⟨hsp, hoperands, hflags, hpc⟩ := kept_of_sp_written (s := s) (v := s.sp) hregs
  exact ⟨t.charge op, by rw [ht, orFault], hstored.of_eq rfl, hoperands, hflags, ⟨hsp, hpc⟩, hkept.of_eq rfl,
    hkept.charge_cycles op⟩

/-- PUSH (R143). -/
theorem pushPair_spec (op : Byte) (p : StackPair) (s : State) :
    (WordWritable s.cfg (s.sp - 2#16) → ∃ t, pushPair op p s = .next t ∧ t.sp = s.sp - 2#16 ∧
      StoredWord s t (s.sp - 2#16) (s.stackPair p) ∧ RegsKept s t [] ∧ FlagsKept s t ∧ t.pc = s.pc ∧ StoreKept s t ∧
      t.cycles = cycleCost s.cfg op true) ∧
    WordStoreFaults s (s.sp - 2#16) (pushPair op p s) := by
  refine ⟨fun hw => ?_, push_faults _ _ _⟩
  obtain ⟨t, ht, hregs, -, hstored, hkept⟩ := push_ok (v := s.stackPair p) hw
  obtain ⟨hsp, hoperands, hflags, hpc⟩ := kept_of_sp_written hregs
  exact ⟨t.charge op, by rw [pushPair, ht, orFault], hsp, hstored.of_eq rfl, hoperands, hflags, hpc, hkept.of_eq rfl,
    hkept.charge_cycles op⟩

/-- POP (R144, R145). -/
theorem popPair_ok {op : Byte} {p : StackPair} {s : State} {v : Word} (h : readWord .read s s.sp = .ok v) :
    ∃ t, popPair op p s = .next t ∧ t.sp = s.sp + 2#16 ∧ t.stackPair p = (if p = .af then v &&& 0xFFF0#16 else v) ∧
      RegsKept s t (stackPairHalves p) ∧ (p ≠ .af → FlagsKept s t) ∧ t.pc = s.pc ∧ MachineKept s t ∧
      t.cycles = cycleCost s.cfg op true := by
  refine ⟨((s.setSP (s.sp + 2#16)).setStackPair p v).charge op, by rw [popPair, pop_ok h, orFault], ?_,
    Regs.getStackPair_setStackPair_eq _ p v, regsKept_setStackPair s p v ?_, Regs.setStackPair_f_of_ne _ v, ?_,
    machineKept_of_eq rfl, rfl⟩
  · simp
  · funext q
    cases p <;> cases q <;> rfl
  · simp

theorem popPair_error {op : Byte} {p : StackPair} {s : State} {e : Fault} (h : readWord .read s s.sp = .error e) :
    popPair op p s = .fault e := by rw [popPair, pop_error h, orFault]

/-- SP plus a signed displacement, into a pair or SP, with its flags (R146, R183, R184). -/
theorem spPlus_spec (op : Byte) (p : Pair) (e : Byte) (s : State) :
    ∃ t, spPlus op p e s = .next t ∧ t.pair p = s.sp + BitVec.ofInt 16 e.toInt ∧
      FlagsAre t false false (decide (s.sp.toNat % 16 + e.toNat % 16 > 15))
        (decide (s.sp.toNat % 256 + e.toNat > 255)) ∧
      RegsKept s t (pairHalves p) ∧ (p ≠ .sp → t.sp = s.sp) ∧ t.pc = s.pc ∧ MachineKept s t ∧
      t.cycles = cycleCost s.cfg op true := by
  rw [← sext16_eq]
  exact ⟨_, rfl, setPair_setFlags_spec op p (addSPeValue s.sp e) (addSPeFlags s.sp e) s⟩

/-! ### The instructions

In a namespace of their own: `pushPair` and `popPair` are operations of the model. -/

namespace Load16

/-- Settles O9: the pair write, of the immediate or of HL into SP. -/
theorem loadPair : Obligations.LoadPair := by
  refine ⟨fun s => ⟨rfl, rfl, fun p hi lo hpair => ?_⟩, fun p nn s => ?_, fun s => ?_⟩
  · have hjoin : s.pair p = joinBytes (s.reg hi) (s.reg lo) := by
      simp only [List.mem_cons, Prod.mk.injEq, List.not_mem_nil, or_false] at hpair
      rcases hpair with ⟨rfl, rfl, rfl⟩ | ⟨rfl, rfl, rfl⟩ | ⟨rfl, rfl, rfl⟩ <;> rfl
    rw [hjoin, joinBytes_toNat_high_first]
  · exact ⟨encodes_ldPairImm p nn, immediateFaults _, _, exec_ldPairImm p nn s, setPair_charge_spec _ p nn s⟩
  · obtain ⟨hsp, hregs, hflags, -, hrest⟩ := setPair_charge_spec 0xF9#8 .sp s.hl s
    exact ⟨⟨rfl, rfl, rfl, rfl, rfl⟩, _, rfl, hsp, hregs, hflags, hrest⟩

/-- Settles O10: the word store of SP. -/
theorem storeSP : Obligations.StoreSP :=
  fun nn s => ⟨⟨rfl, rfl, rfl, rfl, rfl⟩, immediateFaults _, storeWord_spec 0x08#8 nn s.sp s⟩

/-- Settles O11: the push of the pair. -/
theorem pushPair : Obligations.PushPair := by
  refine ⟨fun s => ⟨rfl, rfl, rfl, joinBytes_toNat_high_first _ _⟩, fun p s => ?_⟩
  rw [exec_push]
  exact ⟨encodes_push p, pushPair_spec _ p s⟩

/-- Settles O12: the pop into the pair. -/
theorem popPair : Obligations.PopPair := by
  intro p s
  rw [exec_pop]
  exact ⟨encodes_pop p, fun _ hread => popPair_ok hread, fun _ hread => popPair_error hread⟩

/-- Settles O13: the displacement added into HL or SP. -/
theorem addDisplacementToSP : Obligations.AddDisplacementToSP := by
  intro e s h c
  refine ⟨⟨rfl, rfl, rfl, rfl, rfl⟩, immediateFaults _, ⟨rfl, rfl, rfl, rfl, rfl⟩, immediateFaults _, ?_, ?_⟩
  · obtain ⟨t, hexec, hvalue, hflags, hregs, hsp, hpc, hrest⟩ := spPlus_spec 0xF8#8 .hl e s
    exact ⟨t, hexec, hvalue, hflags, hregs, ⟨hsp (by decide), hpc⟩, hrest⟩
  · obtain ⟨t, hexec, hvalue, hflags, hregs, -, hrest⟩ := spPlus_spec 0xE8#8 .sp e s
    exact ⟨t, hexec, hvalue, hflags, hregs, hrest⟩

end Load16

end Sys2Proof.Machine
end

section
/-! PROOF. The 8-bit arithmetic and logic (R150-R172): each instruction is one shared operation of Machine/Alu8.lean, whose
lemma gives the result, the frame and the faults; what is left is the operation's result as a number with its flags. -/

namespace Sys2Proof.Machine

/-! ### `alu[y] s` in its three operand forms -/

theorem aluEncodes (o : AluOp) (x : AluOperand) : AluEncodes o x := by
  cases x with
  | reg r => exact encodes_aluReg o r
  | atHL => exact encodes_aluAtHL o
  | imm n => exact ⟨encodes_aluImm o n, immediateFaults _⟩

/-- Every operation over every operand form: its encoding, its result and frame, and the fault of the operand's read. -/
theorem alu_spec (o : AluOp) (x : AluOperand) (s : State) :
    AluEncodes o x ∧
    (∀ v, operandValue s x = .ok v → ∃ t, exec (Instr.alu o x) s = .next t ∧
      t.reg .a = (if aluWritesA o then (aluResult o (s.reg .a) v s.flags.c).value else s.reg .a) ∧
      FlagsAre t (aluResult o (s.reg .a) v s.flags.c).flags.z (aluResult o (s.reg .a) v s.flags.c).flags.n
        (aluResult o (s.reg .a) v s.flags.c).flags.h (aluResult o (s.reg .a) v s.flags.c).flags.c ∧
      RegsKept s t [.a] ∧ PointersKept s t ∧ MachineKept s t ∧ Charged s t (Instr.alu o x) true) ∧
    (∀ e, operandValue s x = .error e → exec (Instr.alu o x) s = .fault e) := by
  rw [exec_alu]
  exact ⟨aluEncodes o x, fun _ hv => aluOn_ok hv, fun _ he => aluOn_error he⟩

/-- ADD and ADC are the adder, the carry coming in for ADC only (R153, R154). -/
theorem aluResult_addition {o : AluOp} (ho : o = .add ∨ o = .adc) (a v : Byte) (c : Bool) :
    let cin := if o = .adc then c.toNat else 0
    let sum := a.toNat + v.toNat + cin
    aluWritesA o = true ∧ aluResult o a v c = ⟨BitVec.ofNat 8 sum,
      ⟨decide (sum % 256 = 0), false, decide (a.toNat % 16 + v.toNat % 16 + cin > 15), decide (sum > 255)⟩⟩ := by
  rcases ho with rfl | rfl
  · exact ⟨rfl, add8_eq a v false⟩
  · exact ⟨rfl, add8_eq a v c⟩

/-- SUB, SBC and CP are the subtractor, the carry coming in for SBC only (R155, R156, R160). -/
theorem aluResult_subtraction {o : AluOp} (ho : o = .sub ∨ o = .sbc ∨ o = .cp) (a v : Byte) (c : Bool) :
    let cin := if o = .sbc then c.toNat else 0
    let difference := a.toNat + 512 - v.toNat - cin
    aluWritesA o = decide (o ≠ .cp) ∧ aluResult o a v c = ⟨BitVec.ofNat 8 difference,
      ⟨decide (difference % 256 = 0), true, decide (a.toNat % 16 < v.toNat % 16 + cin),
        decide (a.toNat < v.toNat + cin)⟩⟩ := by
  rcases ho with rfl | rfl | rfl
  · exact ⟨rfl, sub8_eq a v false⟩
  · exact ⟨rfl, sub8_eq a v c⟩
  · exact ⟨rfl, sub8_eq a v false⟩

/-- AND, XOR and OR are their bitwise functions (R157, R158, R159). -/
theorem aluResult_bitwise {o : AluOp} {f : Byte → Byte → Byte}
    (ho : (o, f) = (AluOp.and, fun a b => a &&& b) ∨ (o, f) = (AluOp.xor, fun a b => a ^^^ b) ∨
      (o, f) = (AluOp.or, fun a b => a ||| b)) (a v : Byte) (c : Bool) :
    aluWritesA o = true ∧ aluResult o a v c = ⟨f a v, ⟨decide (f a v = 0#8), false, decide (o = .and), false⟩⟩ := by
  simp only [Prod.mk.injEq] at ho
  rcases ho with ⟨rfl, rfl⟩ | ⟨rfl, rfl⟩ | ⟨rfl, rfl⟩ <;> exact ⟨rfl, rfl⟩

/-- Settles O14: the adder's sum and carries. -/
theorem addAndAdc : Obligations.AddAndAdc := by
  refine ⟨fun _ _ _ => ⟨rfl, rfl, rfl⟩, fun o x s ho => ?_⟩
  obtain ⟨hencodes, hok, herror⟩ := alu_spec o x s
  refine ⟨hencodes, fun v hv => ?_, herror⟩
  obtain ⟨t, hexec, ha, hflags, hrest⟩ := hok v hv
  obtain ⟨hwrites, hresult⟩ := aluResult_addition ho (s.reg .a) v s.flags.c
  rw [hresult] at ha hflags
  rw [if_pos hwrites] at ha
  exact ⟨t, hexec, by rw [ha, BitVec.toNat_ofNat], hflags, hrest⟩

/-- Settles O15: the subtractor's difference and borrows; CP leaves A alone. -/
theorem subSbcAndCp : Obligations.SubSbcAndCp := by
  intro o x s ho
  obtain ⟨hencodes, hok, herror⟩ := alu_spec o x s
  refine ⟨hencodes, fun v hv => ?_, herror⟩
  obtain ⟨t, hexec, ha, hflags, hrest⟩ := hok v hv
  obtain ⟨hwrites, hresult⟩ := aluResult_subtraction ho (s.reg .a) v s.flags.c
  rw [hresult] at ha hflags
  refine ⟨t, hexec, ?_, hflags, hrest⟩
  split
  case isTrue hcp => rw [ha, hwrites, if_neg (by simp [hcp])]
  case isFalse hcp => rw [ha, hwrites, if_pos (decide_eq_true hcp), BitVec.toNat_ofNat]

/-- Settles O16: the bitwise result. -/
theorem andXorAndOr : Obligations.AndXorAndOr := by
  intro o x s f ho
  obtain ⟨hencodes, hok, herror⟩ := alu_spec o x s
  refine ⟨hencodes, fun v hv => ?_, herror⟩
  obtain ⟨t, hexec, ha, hflags, hrest⟩ := hok v hv
  obtain ⟨hwrites, hresult⟩ := aluResult_bitwise ho (s.reg .a) v s.flags.c
  rw [hresult] at ha hflags
  rw [if_pos hwrites] at ha
  exact ⟨t, hexec, ha, hflags, hrest⟩

/-! ### INC and DEC of a byte -/

/-- INC and DEC of a register: the register, the flags and the frame (R161, R163). -/
theorem stepReg_spec (op : Byte) (f : Byte → Flags → AluResult) (r : Reg8) (s : State) :
    ∃ t, stepReg op f r s = .next t ∧ t.reg r = (f (s.reg r) s.flags).value ∧
      FlagsAre t (f (s.reg r) s.flags).flags.z (f (s.reg r) s.flags).flags.n (f (s.reg r) s.flags).flags.h
        (f (s.reg r) s.flags).flags.c ∧
      RegsKept s t [r] ∧ PointersKept s t ∧ MachineKept s t ∧ t.cycles = cycleCost s.cfg op true :=
  ⟨_, rfl, setReg_setFlags_spec op r _ _ s⟩

/-- Settles O17: INC and DEC as numbers, in the register's own place. -/
theorem incAndDecRegister : Obligations.IncAndDecRegister := by
  intro r s v
  refine ⟨encodes_incReg r, encodes_decReg r, ?_, ?_⟩
  · obtain ⟨t, hexec, hvalue, hflags, hrest⟩ := stepReg_spec (Instr.incReg r).opcode inc8 r s
    rw [inc8_eq] at hvalue hflags
    exact ⟨t, exec_incReg r s ▸ hexec, by rw [hvalue, BitVec.toNat_add]; rfl, hflags, hrest⟩
  · obtain ⟨t, hexec, hvalue, hflags, hrest⟩ := stepReg_spec (Instr.decReg r).opcode dec8 r s
    rw [dec8_eq] at hvalue hflags
    exact ⟨t, exec_decReg r s ▸ hexec, by rw [hvalue, BitVec.toNat_sub, Nat.add_comm]; rfl, hflags, hrest⟩

/-- INC with its zero flag as a test of the byte itself (R162). -/
theorem inc8_eq_byte (v : Byte) (x : Flags) :
    inc8 v x = ⟨v + 1#8, ⟨decide (v + 1#8 = 0#8), false, decide (v.toNat % 16 + 1 > 15), x.c⟩⟩ := by
  have hzero : v + 1#8 = 0#8 ↔ (v.toNat + 1) % 256 = 0 := by bv_omega
  simp only [inc8_eq, hzero]

/-- DEC with its zero flag as a test of the byte itself (R164). -/
theorem dec8_eq_byte (v : Byte) (x : Flags) :
    dec8 v x = ⟨v - 1#8, ⟨decide (v - 1#8 = 0#8), true, decide (v.toNat % 16 < 1), x.c⟩⟩ := by
  have hzero : v - 1#8 = 0#8 ↔ (v.toNat + 255) % 256 = 0 := by bv_omega
  simp only [dec8_eq, hzero]

/-- Settles O18: the step at HL with the flags of INC or of DEC; a read that fails ends it before the write. -/
theorem incAndDecAtHL : Obligations.IncAndDecAtHL := by
  refine ⟨⟨rfl, rfl, rfl, rfl, rfl⟩, ⟨rfl, rfl, rfl, rfl, rfl⟩, fun s i hi => ?_⟩
  rcases hi with rfl | rfl
  · refine ⟨fun v hread => ?_, fun _ => stepAtHL_error⟩
    have hspec := stepAtHL_spec (op := 0x34#8) inc8 hread
    rw [inc8_eq_byte] at hspec
    exact hspec
  · refine ⟨fun v hread => ?_, fun _ => stepAtHL_error⟩
    have hspec := stepAtHL_spec (op := 0x35#8) dec8 hread
    rw [dec8_eq_byte] at hspec
    exact hspec

/-! ### The rotates, DAA, CPL, SCF and CCF -/

/-- A and the flags written: the value, the flags and the frame (R165-R170). -/
theorem putA_spec (op : Byte) (r : AluResult) (s : State) :
    ∃ t, putA op r s = .next t ∧ t.reg .a = r.value ∧ FlagsAre t r.flags.z r.flags.n r.flags.h r.flags.c ∧
      RegsKept s t [.a] ∧ PointersKept s t ∧ MachineKept s t ∧ t.cycles = cycleCost s.cfg op true :=
  ⟨_, rfl, setReg_setFlags_spec op .a _ _ s⟩

/-- Settles O19: each rotate writes A with its number, and the bit rotated out as the only flag. -/
theorem rotatesOfA : Obligations.RotatesOfA := by
  refine ⟨⟨rfl, rfl, rfl, rfl, rfl⟩, ⟨rfl, rfl, rfl, rfl, rfl⟩, ⟨rfl, rfl, rfl, rfl, rfl⟩, ⟨rfl, rfl, rfl, rfl, rfl⟩, ?_⟩
  intro s i value out a cin hmem
  obtain ⟨hrlc, hrrc, hrl, hrr, hbit7, hbit0⟩ := rotate_values (s.reg .a) s.flags.c
  have hrotate : ∃ r : AluResult, exec i s = putA i.opcode r s ∧ r.value.toNat = value ∧ r.flags = rotateFlags out := by
    simp only [List.mem_cons, Prod.mk.injEq, List.not_mem_nil, or_false] at hmem
    rcases hmem with ⟨rfl, rfl, rfl⟩ | ⟨rfl, rfl, rfl⟩ | ⟨rfl, rfl, rfl⟩ | ⟨rfl, rfl, rfl⟩
    · exact ⟨_, rfl, hrlc, congrArg rotateFlags hbit7⟩
    · exact ⟨_, rfl, hrrc, congrArg rotateFlags hbit0⟩
    · exact ⟨_, rfl, hrl, congrArg rotateFlags hbit7⟩
    · exact ⟨_, rfl, hrr, congrArg rotateFlags hbit0⟩
  obtain ⟨r, hexec, hvalue, hout⟩ := hrotate
  obtain ⟨t, hput, ha, hflags, hrest⟩ := putA_spec i.opcode r s
  rw [hout] at hflags
  exact ⟨t, hexec.trans hput, by rw [ha, hvalue], hflags, hrest⟩

/-- Settles O20: DAA as numbers. -/
theorem decimalAdjust : Obligations.DecimalAdjust := by
  refine ⟨⟨rfl, rfl, rfl, rfl, rfl⟩, fun s => ?_⟩
  obtain ⟨hvalue, hresult⟩ := daa8_eq (s.reg .a) s.flags
  obtain ⟨t, hexec, ha, hflags, hrest⟩ := putA_spec 0x27#8 (daa8 (s.reg .a) s.flags) s
  rw [hresult] at hflags
  exact ⟨t, hexec, by rw [ha, hvalue], hflags, hrest⟩

/-- Settles O21: A complemented is its distance from 255; SCF and CCF write the flags alone. -/
theorem complementAndCarryFlags : Obligations.ComplementAndCarryFlags := by
  refine ⟨⟨rfl, rfl, rfl, rfl, rfl⟩, ⟨rfl, rfl, rfl, rfl, rfl⟩, ⟨rfl, rfl, rfl, rfl, rfl⟩, fun s => ⟨?_, ?_, ?_⟩⟩
  · obtain ⟨t, hexec, ha, hrest⟩ := putA_spec 0x2F#8 ⟨~~~(s.reg .a), cplFlags s.flags⟩ s
    exact ⟨t, hexec, by rw [ha, BitVec.toNat_not], hrest⟩
  · exact ⟨_, rfl, setFlags_charge_spec 0x37#8 (scfFlags s.flags) s⟩
  · exact ⟨_, rfl, setFlags_charge_spec 0x3F#8 (ccfFlags s.flags) s⟩

end Sys2Proof.Machine
end

section
/-! PROOF. The 16-bit arithmetic (R180-R184): each instruction writes one pair by a shared operation of Machine/Load16.lean
or Machine/Alu16.lean; what is left is the pair as a number and the carries of ADD HL,rr. -/

namespace Sys2Proof.Machine

/-- Settles O22: the pair write, of the pair one higher or one lower. -/
theorem incAndDecPair : Obligations.IncAndDecPair := by
  refine fun p s => ⟨encodes_incPair p, encodes_decPair p, ?_, ?_⟩
  · obtain ⟨hpair, hrest⟩ := setPair_charge_spec (Instr.incPair p).opcode p (s.pair p + 1#16) s
    exact ⟨_, exec_incPair p s, by rw [hpair, BitVec.toNat_add]; rfl, hrest⟩
  · obtain ⟨hpair, hrest⟩ := setPair_charge_spec (Instr.decPair p).opcode p (s.pair p - 1#16) s
    exact ⟨_, exec_decPair p s, by rw [hpair, BitVec.toNat_sub, Nat.add_comm]; rfl, hrest⟩

/-- HL the sum, its flags and the frame (R182). -/
theorem addHL_spec (op : Byte) (b : Word) (s : State) :
    ∃ t, addHL op b s = .next t ∧ t.hl = s.hl + b ∧
      FlagsAre t s.flags.z false (halfCarry16 s.cfg.hc16 s.hl b) (decide (s.hl.toNat + b.toNat > 65535)) ∧
      RegsKept s t [.h, .l] ∧ PointersKept s t ∧ MachineKept s t ∧ t.cycles = cycleCost s.cfg op true := by
  obtain ⟨hhl, hflags, hregs, hsp, hpc, hrest⟩ :=
    setPair_setFlags_spec op .hl (s.hl + b) (addHLFlags s.cfg.hc16 s.hl b s.flags) s
  exact ⟨_, rfl, hhl, hflags, hregs, ⟨hsp (by decide), hpc⟩, hrest⟩

/-- H of ADD HL,rr by default (R184). -/
theorem halfCarry16_bit11 (a b : Word) :
    halfCarry16 .bit11 a b = decide (a.toNat % 4096 + b.toNat % 4096 > 4095) := rfl

/-- H of ADD HL,rr under any other HC16 (R184, log entry 7). -/
theorem halfCarry16_other (a b : Word) : halfCarry16 .other a b = Config.otherHalfCarry16 a b := rfl

/-- Settles O23: HL is the sum, and H is what HC16 makes of the two operands. -/
theorem addPairToHL : Obligations.AddPairToHL := by
  intro p s a b
  obtain ⟨t, hexec, hhl, hflags, hrest⟩ := addHL_spec (Instr.addHLPair p).opcode (s.pair p) s
  exact ⟨encodes_addHLPair p, t, _, exec_addHLPair p s ▸ hexec, by rw [hhl, BitVec.toNat_add], hflags,
    fun hmode => by rw [hmode, halfCarry16_bit11], fun hmode => by rw [hmode, halfCarry16_other], hrest⟩

end Sys2Proof.Machine
end

section
/-! PROOF. The control transfers (R190-R201): each instruction is one shared operation of Machine/Control.lean, taken or
not, and the lemma of that operation gives the result, the frame and the faults. EI, DI and RETI reach the interrupt phase
of their own step (R200, R213, R214). -/

namespace Sys2Proof.Machine

/-! ### What the shared operations answer -/

/-- A conditional jump: PC and the cost follow the condition, and the rest stays either way (R192, R195). -/
theorem ifCond_jumpTo_spec (op : Byte) (cc : Cond) (target : Word) (s : State) :
    ∃ t, ifCond op cc (jumpTo op target s) s = .next t ∧ t.pc = (if condHolds cc s then target else s.pc) ∧ t.sp = s.sp ∧
      RegsKept s t [] ∧ FlagsKept s t ∧ MachineKept s t ∧ t.cycles = cycleCost s.cfg op (condHolds cc s) := by
  cases hcond : condHolds cc s with
  | true =>
    rw [ifCond_taken hcond, if_pos rfl]
    exact jumpTo_spec op target s
  | false =>
    rw [if_neg Bool.false_ne_true]
    obtain ⟨t, hexec, hregs, hflags, ⟨hsp, hpc⟩, hrest⟩ := ifCond_not hcond
    exact ⟨t, hexec, hpc, hsp, hregs, hflags, hrest⟩

/-- RET and the taken RET cc: the pop of PC where the word at SP reads, the read's fault where it does not (R198, R199). -/
theorem popPC_spec (op : Byte) (s : State) :
    (∀ v, readWord .read s s.sp = .ok v → ∃ t, popPC op s = .next t ∧ t.pc = v ∧ t.sp = s.sp + 2#16 ∧ RegsKept s t [] ∧
      FlagsKept s t ∧ MachineKept s t ∧ t.cycles = cycleCost s.cfg op true) ∧
    (∀ e, readWord .read s s.sp = .error e → popPC op s = .fault e) :=
  ⟨fun _ hread => popPC_ok hread, fun _ hread => popPC_error hread⟩

/-- RETI pops PC and sets IME (R200). -/
theorem execReti_ok {s : State} {v : Word} (h : readWord .read s s.sp = .ok v) :
    execReti s = .next ((((s.setSP (s.sp + 2#16)).setPC v).setIme true).charge 0xD9#8) := by
  simp only [execReti, returnFromInterrupt, pop_ok h, orFault]

theorem execReti_error {s : State} {e : Fault} (h : readWord .read s s.sp = .error e) : execReti s = .fault e := by
  simp only [execReti, returnFromInterrupt, pop_error h, orFault]

/-! ### Jumps -/

/-- Settles O24: the three jumps are one, each at its target. -/
theorem jumps : Obligations.Jumps := by
  intro nn e
  refine ⟨⟨⟨rfl, rfl, rfl, rfl, rfl⟩, immediateFaults _⟩, ⟨rfl, rfl, rfl, rfl, rfl⟩,
    ⟨⟨rfl, rfl, rfl, rfl, rfl⟩, immediateFaults _⟩, fun s i target hit => ?_⟩
  have hexec : exec i s = jumpTo i.opcode target s := by
    simp only [List.mem_cons, Prod.mk.injEq, List.not_mem_nil, or_false, ← sext16_eq] at hit
    rcases hit with ⟨rfl, rfl⟩ | ⟨rfl, rfl⟩ | ⟨rfl, rfl⟩ <;> rfl
  obtain ⟨t, hjump, hpc, hsp, hregs, hflags, hkept, hcost⟩ := jumpTo_spec i.opcode target s
  refine ⟨t, hexec.trans hjump, hpc, hsp, hregs, hflags, hkept, hcost, ?_⟩
  rintro rfl
  exact hcost.trans (cycleCost_jpnn s.cfg true)

/-- Settles O25: both conditional jumps are one, each at its target. -/
theorem conditionalJumps : Obligations.ConditionalJumps := by
  refine ⟨fun s => ⟨rfl, rfl, rfl, rfl⟩, fun cc nn e => ⟨⟨encodes_jpCond cc nn, immediateFaults _⟩,
    ⟨encodes_jrCond cc e, immediateFaults _⟩, fun s i target hit => ?_⟩⟩
  have hexec : exec i s = ifCond i.opcode cc (jumpTo i.opcode target s) s := by
    simp only [List.mem_cons, Prod.mk.injEq, List.not_mem_nil, or_false, ← sext16_eq] at hit
    rcases hit with ⟨rfl, rfl⟩ | ⟨rfl, rfl⟩
    · exact exec_jpCond cc _ s
    · exact exec_jrCond cc e s
  rw [hexec]
  exact ifCond_jumpTo_spec i.opcode cc target s

/-! ### Calls -/

/-- Settles O26: CALL and RST are one push of PC and jump, each to its target. -/
theorem callAndRst : Obligations.CallAndRst := by
  refine fun nn y => ⟨⟨⟨rfl, rfl, rfl, rfl, rfl⟩, immediateFaults _⟩, encodes_rst y, fun s i target hit => ?_⟩
  have hexec : exec i s = callTo i.opcode target s := by
    simp only [List.mem_cons, Prod.mk.injEq, List.not_mem_nil, or_false] at hit
    rcases hit with ⟨rfl, rfl⟩ | ⟨rfl, rfl⟩
    · rfl
    · exact exec_rst y s
  rw [hexec]
  exact callTo_spec i.opcode target s

/-- Settles O27: not taken only the cost is charged, taken it is the call. -/
theorem conditionalCall : Obligations.ConditionalCall := by
  intro cc nn s
  rw [exec_callCond]
  refine ⟨encodes_callCond cc nn, immediateFaults _, ifCond_not, fun hcond => ?_⟩
  rw [ifCond_taken hcond]
  exact callTo_spec _ nn s

/-! ### Returns -/

/-- Settles O28: RET is the pop of PC, RETI the return from an interrupt. -/
theorem retAndReti : Obligations.RetAndReti := by
  refine ⟨⟨rfl, rfl, rfl, rfl, rfl⟩, ⟨rfl, rfl, rfl, rfl, rfl⟩, fun s i hi => ?_⟩
  rcases hi with rfl | rfl
  · obtain ⟨hok, herror⟩ := popPC_spec 0xC9#8 s
    refine ⟨fun v hread => ?_, herror⟩
    obtain ⟨t, hexec, hpc, hsp, hregs, hflags, ⟨⟨hime, hhalted⟩, hdevices, houtputs, hmemory⟩, hcost⟩ := hok v hread
    exact ⟨t, hexec, hpc, hsp, by simp [hime], hhalted, hregs, hflags, hdevices, houtputs, hmemory, hcost⟩
  · refine ⟨fun v hread => ⟨_, execReti_ok hread, rfl, rfl, by simp [State.charge], rfl, ?_, rfl, ⟨rfl, rfl, rfl⟩,
      ⟨rfl, rfl, rfl, rfl, rfl, rfl⟩, fun _ _ => rfl, rfl⟩, fun _ hread => execReti_error hread⟩
    exact fun r _ => by cases r <;> rfl

/-- Settles O29: not taken only the cost is charged, taken it is the pop of PC. -/
theorem conditionalRet : Obligations.ConditionalRet := by
  intro cc s
  rw [exec_retCond]
  refine ⟨encodes_retCond cc, ifCond_not, fun hcond => ?_⟩
  rw [ifCond_taken hcond]
  exact popPC_spec _ s

/-! ### The interrupt phase of the own step (D16) -/

/-- The processor step over an instruction of one byte that answers: the interrupt phase over the state it leaves (R220). -/
theorem cpuStep_op0 {s t : State} {op : Byte} {i : Instr} (hrun : Running s) (hread : readByte .fetch s s.pc = .ok op)
    (hpop : populated s.cfg op = true) (hrow : lookupRow op = some (.op0 i))
    (hexec : exec i (s.setPC (s.pc + 1#16)) = .next t) : cpuStep s = interruptPhase t := by
  obtain ⟨-, hhalted⟩ := hrun
  simp only [cpuStep, instructionPhase, hhalted, fetchInstr_op0 hread hpop hrow, orFault, hexec, thenRun,
    Bool.false_eq_true, ↓reduceIte]

theorem interruptPhase_of_ime {s : State} (h : s.ime = true) : interruptPhase s = serviceInterrupts s := if_pos h

/-- Settles O43: EI and RETI leave IME set, so the phase of their step serves; DI leaves it clear, so it is idle. -/
theorem enableTakesEffectAtOnce : Obligations.EnableTakesEffectAtOnce := by
  refine fun s hrun => ⟨fun hpop hread => ?ei, fun hpop hread => ?di, fun v hpop hread hword => ?reti⟩
  case ei => exact (cpuStep_op0 (i := .ei) hrun hread hpop rfl rfl).trans (interruptPhase_of_ime rfl)
  case di => exact (cpuStep_op0 (i := .di) hrun hread hpop rfl rfl).trans (interruptPhase_idle (.inl rfl))
  case reti =>
    have hexec : exec .reti (s.setPC (s.pc + 1#16)) =
        .next ((((s.setSP (s.sp + 2#16)).setPC v).setIme true).charge 0xD9#8) := execReti_ok hword
    exact (cpuStep_op0 hrun hread hpop rfl hexec).trans (interruptPhase_of_ime rfl)

end Sys2Proof.Machine
end

section
/-! PROOF. The system instructions (R210-R214): each writes IME and the run state, possibly with what they hold, and charges
its opcode. The halted step (R220, R239). -/

namespace Sys2Proof.Machine

/-- IME and the run state written and the cost charged (R210-R214). -/
theorem setIme_setHalted_charge_spec (op : Byte) (ime halted : Bool) (s : State) :
    let t := ((s.setIme ime).setHalted halted).charge op
    t.ime = ime ∧ t.halted = halted ∧ RegsKept s t [] ∧ FlagsKept s t ∧ PointersKept s t ∧ DevicesKept s t ∧
      OutputsKept s t ∧ MemoryKept s t ∧ t.cycles = cycleCost s.cfg op true :=
  ⟨rfl, rfl, fun _ _ => rfl, rfl, ⟨rfl, rfl⟩, ⟨rfl, rfl, rfl⟩, ⟨rfl, rfl, rfl, rfl, rfl, rfl⟩, fun _ _ => rfl, rfl⟩

/-- Settles O30: the five instructions are one write of IME and the run state, each with its two values. -/
theorem systemInstructions : Obligations.SystemInstructions := by
  intro n
  refine ⟨⟨rfl, rfl, rfl, rfl, rfl⟩, ⟨rfl, rfl, rfl, rfl, rfl⟩, ⟨rfl, rfl, rfl, rfl, rfl⟩, ⟨rfl, rfl, rfl, rfl, rfl⟩,
    ⟨⟨rfl, rfl, rfl, rfl, rfl⟩, immediateFaults _⟩, fun s i ime halted hit => ?_⟩
  have hexec : exec i s = .next (((s.setIme ime).setHalted halted).charge i.opcode) := by
    simp only [List.mem_cons, Prod.mk.injEq, List.not_mem_nil, or_false] at hit
    rcases hit with ⟨rfl, rfl, rfl⟩ | ⟨rfl, rfl, rfl⟩ | ⟨rfl, rfl, rfl⟩ | ⟨rfl, rfl, rfl⟩ | ⟨rfl, rfl, rfl⟩ <;> rfl
  exact ⟨_, hexec, setIme_setHalted_charge_spec i.opcode ime halted s⟩

/-- Settles O34: the law of the halted step. -/
theorem haltedStep : Obligations.HaltedStep := fun _ => step_of_halted

end Sys2Proof.Machine
end

section
/-! PROOF. Taking interrupts (R231-R238): one dispatch as a push and the writes after it, and the phase as the chain of the
dispatches its snapshot names. -/

namespace Sys2Proof.Machine

/-! ### One dispatch (R235, R236) -/

/-- No word lies over IF: its device owns neither neighbour. -/
theorem WordWritable.ne_if {cfg : Config} {a : Word} (h : WordWritable cfg a) :
    a ≠ 0xFF0F#16 ∧ a + 1#16 ≠ 0xFF0F#16 := by
  obtain ⟨d, hd, -, hd'⟩ := h
  constructor
  · rintro rfl
    obtain rfl : Device.interrupt = d := Option.some.inj (owner_if.symm.trans hd)
    rcases owner_interrupt hd' with e | e <;> simp at e
  · intro e
    obtain rfl : Device.interrupt = d := Option.some.inj (owner_if.symm.trans (e ▸ hd'))
    rcases owner_interrupt hd with rfl | rfl <;> simp at e

/-- Writing IF changes no other byte the bus reads. -/
theorem readByte_setIflag_other (k : Access) (s : State) (v : Byte) {b : Word} (h : b ≠ 0xFF0F#16) :
    readByte k (s.setIflag v) b = readByte k s b := by
  refine readByte_eq_of k b rfl fun d _ => ?_
  cases d with
  | interrupt => simp [deviceRead, h]
  | rom | vram | wram | ppu | hram => rfl

/-- A dispatch clears its request and writes the processor's own state; of the bytes the bus reads it writes IF only. -/
theorem readByte_afterDispatch (k : Access) (i : Nat) (u : State) {b : Word} (h : b ≠ 0xFF0F#16) :
    readByte k (afterDispatch i u) b = readByte k u b :=
  readByte_setIflag_other k u (u.iflag &&& ~~~(sourceMask i)) h

theorem sourceMask_eq (n : Fin 5) : sourceMask n.val = BitVec.ofNat 8 (2 ^ n.val) := by
  revert n
  decide

/-- Settles O41: the push of PC stores the word, and what a dispatch writes after it is no byte of that word. -/
theorem dispatchOfOneSource : Obligations.DispatchOfOneSource := by
  refine fun n s => ⟨fun hw => ?_, push_faults _ _ _⟩
  obtain ⟨u, hu, -, -, ⟨hlo, hhi, hother⟩, -⟩ := push_ok (v := s.pc) hw
  have hexec := dispatch_of_push (i := n.val) hu
  obtain ⟨hpc, hsp, hime, hie, hiflag, hhalted, hcycles, hregs, hflags, heffect⟩ := dispatch_facts hexec
  obtain ⟨hneLo, hneHi⟩ := hw.ne_if
  have hnext : s.sp - 1#16 = s.sp - 2#16 + 1#16 := by bv_omega
  rw [hnext]
  refine ⟨_, hexec, hpc, hsp, hime, sourceMask_eq n ▸ hiflag, hie, hhalted, hcycles, hregs, hflags, heffect.outputs,
    fun k => ?_, fun k => ?_, fun k b hb hb' hif => ?_⟩
  · rw [readByte_afterDispatch k _ u hneLo, hlo]
  · rw [readByte_afterDispatch k _ u hneHi, hhi]
  · rw [readByte_afterDispatch k _ u hif, hother k b hb hb']

/-! ### The snapshot (R231, R234) -/

theorem mem_servedSources {s : State} {j : Nat} :
    j ∈ servedSources s ↔ j < 5 ∧ s.ie.getLsbD j = true ∧ s.iflag.getLsbD j = true := by
  have hlist : j ∈ [0, 1, 2, 3, 4] ↔ j < 5 := by
    simp only [List.mem_cons, List.not_mem_nil, or_false]
    omega
  rw [servedSources, List.mem_filter, hlist, Bool.and_eq_true]

/-- Clearing requests one by one clears exactly the listed ones (R233). -/
theorem getLsbD_clearRequests (l : List Nat) (f : Byte) {j : Nat} (hj : j < 8) :
    (l.foldl (fun f i => f &&& ~~~(sourceMask i)) f).getLsbD j = (f.getLsbD j && decide (j ∉ l)) := by
  induction l generalizing f with
  | nil => simp
  | cons i l ih =>
    have hmask : (sourceMask i).getLsbD j = decide (j = i) := by
      simp only [sourceMask, BitVec.getLsbD_shiftLeft, BitVec.getLsbD_one]
      grind
    rw [List.foldl_cons, ih, BitVec.getLsbD_and, BitVec.getLsbD_not, hmask]
    simp [hj, Bool.and_assoc]

theorem getLsbD_sourceBits {j : Nat} (hj : j < 8) : (0x1F#8).getLsbD j = decide (j < 5) := by
  revert j
  decide

/-- The requests left by a phase that serves its whole snapshot (R235). -/
theorem clear_servedSources (s : State) :
    (servedSources s).foldl (fun f i => f &&& ~~~(sourceMask i)) s.iflag =
      s.iflag &&& ~~~(s.ie &&& s.iflag &&& 0x1F#8) := by
  refine BitVec.eq_of_getLsbD_eq fun j hj => ?_
  rw [getLsbD_clearRequests _ _ hj]
  simp only [mem_servedSources, BitVec.getLsbD_and, BitVec.getLsbD_not, getLsbD_sourceBits hj, hj, decide_not,
    Bool.decide_and, Bool.decide_eq_true, decide_true, Bool.true_and]
  rw [Bool.and_comm (decide (j < 5))]

/-- Settles O42: the phase is the chain of dispatches of its snapshot, and the chain's facts are the statement's. -/
theorem interruptPhaseServesTheSnapshot : Obligations.InterruptPhaseServesTheSnapshot := by
  refine fun s => ⟨fun hime => interruptPhase_idle (.inl hime), interruptPhase_eq_fold s, fun t hime h => ?_⟩
  rw [interruptPhase_eq_fold s hime] at h
  obtain ⟨hsp, hcycles, -, hiflag, -, -, -, -, hnone, hlast⟩ := dispatches_facts _ h
  exact ⟨hsp, hcycles, hiflag.trans (clear_servedSources s), hnone, hlast⟩

end Sys2Proof.Machine
end

section
/-! PROOF. One picture unit step: the line counter and its frame (R252, R253, R265), the row it renders (R255, R261), and
the pixels of a rendered line (R256-R260). -/

namespace Sys2Proof.Machine

/-! ### The line counter and the row rendered -/

/-- Settles O49: the counts of the step and the shape of what it writes. -/
theorem lineAdvance : Obligations.LineAdvance := by
  intro n s hly t
  obtain ⟨hly', hacc, -, hiflag⟩ := ppuStep_counts n s hly
  obtain ⟨_, _, _, _, hshape, -⟩ := ppuStep_shape n s
  refine ⟨hacc, hly', by simp only [t, hshape], ppuStep_regs n s, ⟨ppuStep_ime n s, ppuStep_halted n s⟩, ppuStep_ie n s,
    ppuStep_mem n s, ppuStep_fault n s, ppuStep_cfg n s, ppuStep_cycles n s, ?_⟩
  rw [hiflag]
  split
  · exact .inl rfl
  · exact .inr rfl

/-- A step renders when it leaves a visible line at 80 cycles or more and began before 80 or on an earlier line (R255). -/
theorem renderDue_iff (old n : Nat) (t : State) : renderDue old ((old + n) / 456) t = true ↔
    t.ppu.ly.toNat < 144 ∧ 80 ≤ t.ppu.acc ∧ (old < 80 ∨ 456 ≤ old + n) := by
  simp only [renderDue, Bool.and_eq_true, Bool.or_eq_true, decide_eq_true_eq]
  omega

/-- Settles O51: a step that renders sets the row of its line, any other row and any other step keeps the buffer. -/
theorem renderTrigger : Obligations.RenderTrigger := by
  intro n s t entered
  obtain ⟨hrender, hkeep⟩ := ppuStep_fb n s
  have hdue : renderDue s.ppu.acc ((s.ppu.acc + n) / 456) t = true ↔ t.ppu.ly.toNat < 144 ∧ entered :=
    renderDue_iff s.ppu.acc n t
  constructor
  · rintro ly h rfl hentered
    obtain ⟨_, hfb⟩ := hrender (hdue.mpr ⟨h, hentered⟩)
    simp only [t, hfb, Vector.getElem_set_self]
  · intro y h hother
    by_cases hd : renderDue s.ppu.acc ((s.ppu.acc + n) / 456) t = true
    · obtain ⟨_, hfb⟩ := hrender hd
      have hne : t.ppu.ly.toNat ≠ y := fun e => hother ⟨e, (hdue.mp hd).2⟩
      simp only [t, hfb, Vector.getElem_set_ne _ _ hne]
    · simp only [t, hkeep (Bool.eq_false_iff.mpr hd)]

/-! ### The pixels of a rendered line (R256-R260) -/

theorem renderLine_pixel (s : State) {ly x : Nat} (h : ly < 144) (h' : x < 160) :
    (renderLine ly s).fb[ly][x] = pixelShade s ly x := by
  simp [renderLine, h, renderedLine]

/-- The shade of an index is its two-bit field of BGP (R260). -/
theorem shade_toNat (bgp : Byte) (index : Nat) : (shade bgp index).toNat = bgp.toNat / 4 ^ index % 4 := by
  have hpow : 2 ^ (2 * index) = 4 ^ index := Nat.pow_mul 2 2 index
  simp [shade, Nat.shiftRight_eq_div_pow, hpow]

/-- The map's 1024 tile indices lie in VRAM (R257). -/
theorem tileIndexAddr_bounds (p : Ppu) (ly x : Nat) : 0x8000 ≤ tileIndexAddr p ly x ∧ tileIndexAddr p ly x < 0xA000 := by
  unfold tileIndexAddr mapBase
  split <;> omega

/-- A tile row's address by the index as an unsigned byte: 0x80 to 0xFF, the negative indices, start at 0x8800 (R258). -/
theorem tileRowAddr_eq (lcdc tile : Byte) (row : Nat) : tileRowAddr lcdc tile row =
    (if lcdc.getLsbD 4 then 0x8000 + 16 * tile.toNat
      else if tile.toNat < 128 then 0x9000 + 16 * tile.toNat else 0x8000 + 16 * tile.toNat) + 2 * row := by
  unfold tileRowAddr
  have htile := tile.isLt
  split
  · omega
  · rw [BitVec.toInt_eq_toNat_cond]
    split <;> split <;> omega

/-- Both bytes of a tile's row lie in VRAM (R258). -/
theorem tileRowAddr_bounds (lcdc tile : Byte) {row : Nat} (h : row < 8) :
    0x8000 ≤ tileRowAddr lcdc tile row ∧ tileRowAddr lcdc tile row + 1 < 0xA000 := by
  have htile := tile.isLt
  rw [tileRowAddr_eq]
  split
  · omega
  · split <;> omega

/-- Settles O52: the renderer's three bytes lie in VRAM, where the bus reads what it reads. -/
theorem renderedPixel : Obligations.RenderedPixel := by
  intro s ly x h h' yy xx map
  have hmap := tileIndexAddr_bounds s.ppu ly x
  have hmapAddr : map + 32 * (yy / 8) + xx / 8 = tileIndexAddr s.ppu ly x := by
    rw [tileIndexAddr, Nat.mul_comm 32]
    rfl
  let tile := vramByte s (tileIndexAddr s.ppu ly x)
  let rowAddr := pixelRowAddr s.ppu tile ly
  have hrow : 0x8000 ≤ rowAddr ∧ rowAddr + 1 < 0xA000 := tileRowAddr_bounds s.ppu.lcdc tile (Nat.mod_lt yy (by decide))
  refine ⟨tile, vramByte s rowAddr, vramByte s (rowAddr + 1), ?_⟩
  intro tileBase index
  have hrowAddr : tileBase + 2 * (yy % 8) = rowAddr := (tileRowAddr_eq _ _ _).symm
  rw [hmapAddr, hrowAddr, renderLine_pixel s h h']
  exact ⟨vramByte_eq_read s _ hmap.1 hmap.2 _, vramByte_eq_read s _ hrow.1 (by omega) _,
    vramByte_eq_read s _ (by omega) hrow.2 _, shade_toNat _ _⟩

end Sys2Proof.Machine
end

section
/-! PROOF. The state after reset (R25, R28, R291). -/

namespace Sys2Proof.Machine

theorem reset_reg (r : Reg8) : State.reset.reg r = 0#8 := by
  cases r <;> rfl

theorem reset_pixel {y x : Nat} (h : y < 144) (h' : x < 160) : State.reset.fb[y][x] = 0#2 := by
  simp [State.reset]

/-- Settles O53: the register block is read as in every state (O45), and STAT's mode is 2, for LY is below 144 and the
accumulator below 80 (R251). -/
theorem resetState : Obligations.ResetState := by
  refine ⟨reset_reg, rfl, rfl, rfl, rfl, rfl, rfl, rfl, rfl, rfl, rfl, fun p v hp => ?_, fun _ _ => reset_pixel⟩
  -- The register block's entries of O45 come after those of IF and IE, and at reset they compute to the statement's.
  exact registerReads .read State.reset p v (.tail _ (.tail _ hp))

end Sys2Proof.Machine
end
